-- ==== Sys2Proof/Word.lean ====
section
/-!
DEFINITION. The word types of the Y4 (R12, R27, R33) and the finite tables that the state is made of.
A table is a list of (key, entry) pairs; reading looks for the first pair with the key.
-/
namespace Sys2Proof

abbrev Byte := BitVec 8
abbrev W32 := BitVec 32
abbrev W64 := BitVec 64
/-- One 32-bit register of all 64 lanes; lane k is bits [32k+31 : 32k] (R6, R7). -/
abbrev LaneReg := BitVec 2048
/-- A mask with one bit per lane. -/
abbrev Mask := BitVec 64
/-- The 64 bytes of a line, byte i at bits [8i+7 : 8i] (R11). -/
abbrev Line := BitVec 512

/-- A finite table keyed by number. -/
abbrev Tab (α : Type) := List (Nat × α)

namespace Tab

def get? {α : Type} : Tab α → Nat → Option α
  | [], _ => none
  | (k, v) :: r, i => if k = i then some v else get? r i

/-- Replaces the entry at i, or inserts it before the first larger key. -/
def set {α : Type} : Tab α → Nat → α → Tab α
  | [], i, x => [(i, x)]
  | (k, v) :: r, i, x =>
    if k = i then (i, x) :: r
    else if i < k then (i, x) :: (k, v) :: r
    else (k, v) :: set r i x

def erase {α : Type} : Tab α → Nat → Tab α
  | [], _ => []
  | (k, v) :: r, i => if k = i then erase r i else (k, v) :: erase r i

def getD {α : Type} (t : Tab α) (i : Nat) (d : α) : α := (get? t i).getD d

def modify {α : Type} (t : Tab α) (i : Nat) (f : α → α) : Tab α :=
  match get? t i with
  | some v => set t i (f v)
  | none => t

def keys {α : Type} (t : Tab α) : List Nat := t.map (·.1)

@[simp] theorem get?_set_same {α : Type} (t : Tab α) (i : Nat) (x : α) :
    get? (set t i x) i = some x := by
  induction t with
  | nil => simp [set, get?]
  | cons h r ih =>
    obtain ⟨k, v⟩ := h
    by_cases hk : k = i
    · simp [set, get?, hk]
    · by_cases hi : i < k
      · simp [set, get?, hk, hi]
      · simp [set, get?, hk, hi, ih]

@[simp] theorem get?_set_other {α : Type} (t : Tab α) (i j : Nat) (x : α) (h : j ≠ i) :
    get? (set t i x) j = get? t j := by
  induction t with
  | nil => simp [set, get?, Ne.symm h]
  | cons hd r ih =>
    obtain ⟨k, v⟩ := hd
    by_cases hk : k = i
    · subst hk; simp [set, get?, Ne.symm h]
    · by_cases hi : i < k
      · simp [set, get?, hk, hi, Ne.symm h]
      · simp [set, get?, hk, hi, ih]

end Tab

/-- Bit i of a 64-bit word as a Bool. -/
def bit (w : W64) (i : Nat) : Bool := w.getLsbD i

/-- Bits [hi:lo] of a 64-bit word as a number. -/
def bits (w : W64) (hi lo : Nat) : Nat := (w.toNat >>> lo) % 2 ^ (hi + 1 - lo)

end Sys2Proof
end

