-- ==== Sys2Proof/Config.lean ====
section
/-!
DEFINITION. What an implementation fixes and the spec leaves open: opaque constants, of which nothing can be proved.
-/
namespace Sys2Proof.Config

/-- Whether a cvt of an infinity at SAT = 1 into FP16, BF16 or E5M2 keeps it (R259) or rounds it (R235, R237; log 15). -/
opaque infinityKept : Bool

/-- Whether a cvt of an inexact value out of an integer type's range sets NX (R259) beside NV, or not (R236; log 15). -/
opaque rangeInexact : Bool

/-- The FP32 results of the special functions, a fixed function of the input bits (R253), used within the bounds of R254 (log 7). -/
opaque exp2 : W32 → W32
opaque log2 : W32 → W32
opaque rsqrt : W32 → W32
opaque sin : W32 → W32
opaque cos : W32 → W32
opaque tanh : W32 → W32
opaque sigmoid : W32 → W32
opaque gelu : W32 → W32

/-- Memory of a peer device as this device's loads meet it: access number, address (log 18). -/
opaque peerByte : Nat → Nat → Byte

/-- Whether a peer refuses, loses or answers with poison a read of one of this device's own agents (R414): access number, sector (log 18). -/
opaque peerFails : Nat → Nat → Bool

/-- A byte of a collective's destination between an abort and the end of its re-run (R422), and the preset that training
chooses (R442), by free-value number. -/
opaque collByte : Nat → Nat → Byte
opaque preset : Nat → BitVec 4

/-- SERIAL[31:0], STEPPING and PARTFORM of IDENT (R431; log 16). -/
opaque serial : W32
opaque stepping : BitVec 8
/-- PARTFORM is 1 or 2; true for YLS-4M. -/
opaque formM : Bool

/-- Whether an access to boot flash fails at a start (R434 steps 1 and 3), by free-value number. -/
opaque flashFails : Nat → Bool

/-- Whether a stack's wrapper data pass the condition of a training step (R441). -/
opaque trainPass : Nat → Nat → W64 → Bool

/-- The order in which the invocations of one atom leave (R25): the rank of a lane, by free-value number. -/
opaque laneRank : Nat → Nat → Nat

/-- The order in which the pans and clusters of a partition put a new routine map entry in place (R131): the rank of a unit, by free-value
number. -/
opaque unitRank : Nat → Nat → Nat

/-- Whether a 16-byte sector of a stack holds an uncorrectable error when it is read (R68), by free-value number, stack and address
within the stack (R67). -/
opaque hbmFails : Nat → Nat → Nat → Bool

/-- Whether a bundle, its bytes read as a number, passes each check of R434 steps 5 to 8 (log 9). -/
opaque bundleFormat : Nat → Bool
opaque bundleKey : Nat → Bool
opaque bundleSig : Nat → Bool
opaque bundleVersion : Nat → Bool
/-- The bytes that the measured start extends into MEAS0 to MEAS4 (R434, R435; log 9). -/
opaque romDigest : List Byte
opaque bundleHeader : Nat → List Byte
opaque bundleComponents : Nat → List (List Byte)
opaque trainingBytes : Nat → Nat → List Byte
opaque linkBytes : Nat → Nat → List Byte
opaque powerBytes : List Byte

/-- The package power limit in milliwatts of each form (R1, R2, R439). -/
def powerLimit (m : Bool) : Nat := if m then 2600000 else 2400000

end Sys2Proof.Config
end

