-- ==== Sys2Proof/Syntax.lean ====
section
/-!
DEFINITION. The instructions: one constructor per row of the opcode table. Scalar words keep every field of their form
(R27), reserved fields included, and lane words all fields of R33, so that the checks of R60 and R50 belong to their
meaning. The rows that carry no encoding are the machine's other indivisible steps; their operands name the agent and
the request that moves, or the value that arrives from outside.
-/
namespace Sys2Proof

/-- The fields of a 96-bit lane word (R33) other than its opcode. -/
structure LaneWord where
  ty : BitVec 4
  dst : BitVec 11
  s0 : BitVec 11
  s1 : BitVec 11
  s2 : BitVec 11
  s3 : BitVec 11
  gA : BitVec 6
  gB : BitVec 6
  nowb : BitVec 1
  hint : BitVec 3
  stall : BitVec 4
  yld : BitVec 1
  lsel : BitVec 3
  mdf : BitVec 3
  deriving DecidableEq, Repr

/-- A host access through the memory aperture (R428). -/
inductive Aperture where
  | write (addr : Nat) (data : List Byte)
  | read (addr len : Nat)
  deriving DecidableEq, Repr

/-- What a peer asks of this device's memory (R413). -/
inductive PeerReq where
  | load
  | store (wr : List (Nat × Byte × Byte))
  | routine (id word : Nat) (a0 a1 a2 a3 : W64)
  deriving DecidableEq, Repr

/-- A message carried by the flits of one port (R408, R412, R414, R422, R423). -/
inductive PortMsg where
  | request (stamp tag line : Nat) (what : PeerReq)
  | loadReply (op line : Nat) (data : Line) (poison : BitVec 4)
  | writeAck (op line : Nat)
  | routineReply (op lane status : Nat) (reply : W64)
  | refused (op line : Nat)
  | abort (coll attempt : Nat)
  | ready (coll attempt rank : Nat)
  deriving DecidableEq, Repr

/-- A flit as its receiver sees it: sequence number, CRC verdict and message (R408, R409). -/
structure Flit where
  seq : Nat
  crcOk : Bool
  msg : PortMsg
  deriving DecidableEq, Repr

inductive Instr where
  /-- ADD (R217). Scalar ALU add of s(a) and s(b) into s(d) at the type of minor[1:0], wrapping. -/
  | add (d a b : BitVec 6) (t : BitVec 2)
  /-- SUB (R217). Scalar ALU subtract of s(b) from s(a) into s(d), wrapping. -/
  | sub (d a b : BitVec 6) (t : BitVec 2)
  /-- MUL (R217). Scalar ALU multiply giving the low W bits of the product. -/
  | mul (d a b : BitVec 6) (t : BitVec 2)
  /-- MULHI (R217). Scalar ALU multiply giving the high W bits of the signed or unsigned product. -/
  | mulhi (d a b : BitVec 6) (t : BitVec 2)
  /-- AND (R217). Scalar bitwise AND of s(a) and s(b). -/
  | and (d a b : BitVec 6) (t : BitVec 2)
  /-- OR (R217). Scalar bitwise OR of s(a) and s(b). -/
  | or (d a b : BitVec 6) (t : BitVec 2)
  /-- XOR (R217). Scalar bitwise XOR of s(a) and s(b). -/
  | xor (d a b : BitVec 6) (t : BitVec 2)
  /-- SHL (R217). Scalar shift left of s(a) by the low bits of s(b). -/
  | shl (d a b : BitVec 6) (t : BitVec 2)
  /-- SHR (R217). Scalar zero-filled shift right of s(a) by the low bits of s(b). -/
  | shr (d a b : BitVec 6) (t : BitVec 2)
  /-- SRA (R217). Scalar sign-filled shift right of s(a) by the low bits of s(b). -/
  | sra (d a b : BitVec 6) (t : BitVec 2)
  /-- MIN (R217). Scalar minimum of s(a) and s(b), signed or unsigned by type. -/
  | min (d a b : BitVec 6) (t : BitVec 2)
  /-- MAX (R217). Scalar maximum of s(a) and s(b), signed or unsigned by type. -/
  | max (d a b : BitVec 6) (t : BitVec 2)
  /-- POPC (R217). Scalar count of one bits in s(a). -/
  | popc (d a b : BitVec 6) (t : BitVec 2)
  /-- CLZ (R217). Scalar count of leading zero bits in s(a), W when zero. -/
  | clz (d a b : BitVec 6) (t : BitVec 2)
  /-- CMP (R219). Scalar compare of s(a) and s(b) under the condition and type of the minor field, result to q(d). -/
  | cmp (d a b : BitVec 6) (c r : BitVec 3) (t : BitVec 2)
  /-- GARRIVE (R367). Acts as fence.rel.g and then counts one arrival on the named gate of the crew. -/
  | garrive (d a b : BitVec 6)
  /-- GWAIT (R367). Parks the warp until the gate has an unconsumed phase, consumes it and acts as fence.acq.g. -/
  | gwait (d a b : BitVec 6)
  /-- GTRY (R367). Waits up to a hinted time for an unconsumed gate phase and writes whether one was consumed to q(d). -/
  | gtry (d a b : BitVec 6)
  /-- CWAIT_G (R197). Waits for earlier lane blocks to issue and for counter G to fall to the threshold in s(a). -/
  | cwaitG (d a b : BitVec 6)
  /-- CWAIT_X (R197). Waits for earlier lane blocks to issue and for counter X to fall to the threshold in s(a). -/
  | cwaitX (d a b : BitVec 6)
  /-- CWAIT_A (R197). Waits for earlier lane blocks to issue and for counter A to fall to the threshold in s(a). -/
  | cwaitA (d a b : BitVec 6)
  /-- CWAIT_T (R197). Waits for earlier lane blocks to issue and for counter T to fall to the threshold in s(a). -/
  | cwaitT (d a b : BitVec 6)
  /-- FENCE_ACQ (R313). Acquire fence at the scope in minor[2:0], waiting for earlier reads and invalidating L1 at gang scope or wider. -/
  | fenceAcq (d a b : BitVec 6) (sc : BitVec 3)
  /-- FENCE_REL (R313). Release fence at the scope in minor[2:0], waiting for earlier writes to be performed as the scope requires. -/
  | fenceRel (d a b : BitVec 6) (sc : BitVec 3)
  /-- FENCE_FULL (R313). Full fence at the scope in minor[2:0], combining the release waits and the acquire invalidation. -/
  | fenceFull (d a b : BitVec 6) (sc : BitVec 3)
  /-- TOK_PASS (R303). Passes the crew's issue-priority token from the holder to the warp numbered in s(a). -/
  | tokPass (d a b : BitVec 6)
  /-- TOK_TAKE (R303). Waits until the issuing warp holds the crew's priority token. -/
  | tokTake (d a b : BitVec 6)
  /-- VGROW (R208). Asks for s(a) more vector register granules, entering the pipe's wait list, and reports the outcome in q(d). -/
  | vgrow (d a b : BitVec 6)
  /-- VSHRINK (R210). Waits for the lane queue to drain and returns the highest s(a) granules to the pipe. -/
  | vshrink (d a b : BitVec 6)
  /-- RET (R220). Sets the scalar program counter to s(a). -/
  | ret (d a b : BitVec 6)
  /-- JTAB (R222). Jumps through a bounded jump table at s(b) with index s(a), checking bound and landing label. -/
  | jtab (d a b : BitVec 6)
  /-- SRD (R201). Reads status register n into s(d), waiting for lane results when n is WSTAT. -/
  | srd (d a b : BitVec 6)
  /-- SWR (R201). Writes s(a) to a writable status register n after checking its fields. -/
  | swr (d a b : BitVec 6)
  /-- CCLEAN (R118). Writes back the dirty sectors of every line of a virtual range, leaving them valid. -/
  | cclean (a : BitVec 6)
  /-- CFLUSH (R118). Invalidates every line of a range in L1, writes back its dirty sectors and invalidates it at its pan. -/
  | cflush (a : BitVec 6)
  /-- CDROP (R118). Invalidates every line of a range in this cluster's L1 only. -/
  | cdrop (a : BitVec 6)
  /-- CZERO (R118). Stores zero to every byte of an aligned range at its pans, allocating without fetching. -/
  | czero (a : BitVec 6)
  /-- TRAP (R388). Waits for issued lane words, then takes a USER trap with AUX n awaiting the driver's answer. -/
  | trap (d a b : BitVec 6)
  /-- SYSC (R388). Waits for issued lane words, then takes a SYSC trap carrying s1 to s4 and awaiting the driver's answer. -/
  | sysc (d a b : BitVec 6)
  /-- HALT (R388). Takes a HALT trap at once, ending the nest. -/
  | halt (d a b : BitVec 6)
  /-- ADDI_S64 (R218). Adds the sign-extended immediate to s(a) into s(d), modulo 2^64. -/
  | addiS64 (d a : BitVec 6) (imm : BitVec 14)
  /-- ADDI_S32 (R218). Adds the immediate to s(a) and sign-extends the low 32 bits into s(d). -/
  | addiS32 (d a : BitVec 6) (imm : BitVec 14)
  /-- ANDI_B64 (R218). ANDs s(a) with the sign-extended immediate into s(d). -/
  | andiB64 (d a : BitVec 6) (imm : BitVec 14)
  /-- ORI_B64 (R218). ORs s(a) with the sign-extended immediate into s(d). -/
  | oriB64 (d a : BitVec 6) (imm : BitVec 14)
  /-- XORI_B64 (R218). XORs s(a) with the sign-extended immediate into s(d). -/
  | xoriB64 (d a : BitVec 6) (imm : BitVec 14)
  /-- SHL_B64_IMM (R218). Shifts s(a) left by an immediate amount into s(d). -/
  | shlB64Imm (d a : BitVec 6) (imm : BitVec 14)
  /-- SHR_B64_IMM (R218). Shifts s(a) right, zero-filled, by an immediate amount into s(d). -/
  | shrB64Imm (d a : BitVec 6) (imm : BitVec 14)
  /-- SRA_B64_IMM (R218). Shifts s(a) right, sign-filled, by an immediate amount into s(d). -/
  | sraB64Imm (d a : BitVec 6) (imm : BitVec 14)
  /-- MULI_S64 (R218). Multiplies s(a) by the immediate into s(d), modulo 2^64. -/
  | muliS64 (d a : BitVec 6) (imm : BitVec 14)
  /-- CMPI_EQ_S64 (R218). Sets q(d) when s(a) equals the sign-extended immediate. -/
  | cmpiEqS64 (d a : BitVec 6) (imm : BitVec 14)
  /-- CMPI_LT_S64 (R218). Sets q(d) when s(a) is less than the immediate, signed. -/
  | cmpiLtS64 (d a : BitVec 6) (imm : BitVec 14)
  /-- CMPI_LT_N64 (R218). Sets q(d) when s(a) is less than the sign-extended immediate, both read unsigned. -/
  | cmpiLtN64 (d a : BitVec 6) (imm : BitVec 14)
  /-- LD_S8 (R224). Scalar load of a signed byte from s(a) + imm into s(d). -/
  | ldS8 (d a : BitVec 6) (imm : BitVec 14)
  /-- LD_N8 (R224). Scalar load of an unsigned byte from s(a) + imm into s(d). -/
  | ldN8 (d a : BitVec 6) (imm : BitVec 14)
  /-- LD_S16 (R224). Scalar load of a signed halfword into s(d). -/
  | ldS16 (d a : BitVec 6) (imm : BitVec 14)
  /-- LD_N16 (R224). Scalar load of an unsigned halfword into s(d). -/
  | ldN16 (d a : BitVec 6) (imm : BitVec 14)
  /-- LD_S32 (R224). Scalar load of a signed word into s(d). -/
  | ldS32 (d a : BitVec 6) (imm : BitVec 14)
  /-- LD_N32 (R224). Scalar load of an unsigned word into s(d). -/
  | ldN32 (d a : BitVec 6) (imm : BitVec 14)
  /-- LD_B64 (R224). Scalar load of a doubleword into s(d). -/
  | ldB64 (d a : BitVec 6) (imm : BitVec 14)
  /-- ST_B8 (R224). Scalar store of the low byte of s(d) to s(a) + imm. -/
  | stB8 (d a : BitVec 6) (imm : BitVec 14)
  /-- ST_B16 (R224). Scalar store of the low halfword of s(d). -/
  | stB16 (d a : BitVec 6) (imm : BitVec 14)
  /-- ST_B32 (R224). Scalar store of the low word of s(d). -/
  | stB32 (d a : BitVec 6) (imm : BitVec 14)
  /-- ST_B64 (R224). Scalar store of all 64 bits of s(d). -/
  | stB64 (d a : BitVec 6) (imm : BitVec 14)
  /-- LX (R214). Translates and enqueues one lane block with a snapshot of the scalar registers, NMODE, LANES and VALLOC. -/
  | lx (d a : BitVec 6) (imm : BitVec 14)
  /-- LAND (R223). Landing word carrying a 16-bit label; changes no state. -/
  | land (d a : BitVec 6) (imm : BitVec 14)
  /-- B (R32). Branches by 4 × offset when the predicate field holds. -/
  | b (p : BitVec 4) (o : BitVec 22)
  /-- CALL (R220). When taken, writes the return address to s63 and branches. -/
  | call (p : BitVec 4) (o : BitVec 22)
  /-- PREFIX (R30). Supplies the high 26 bits of a 40-bit immediate for the following SI word, executing with it as one instruction. -/
  | pfx (h : BitVec 26) (next : BitVec 32)
  /-- WIN_BIND (R178). Reads a copy description and, after the window's waits and checks, binds window n absent. -/
  | winBind (d a b : BitVec 6)
  /-- WIN_STATE (R180). Writes the state word of window n to s(d) without waiting. -/
  | winState (d a b : BitVec 6)
  /-- WIN_FREE (R181). Waits until window n is present and then makes it absent. -/
  | winFree (d a b : BitVec 6)
  /-- MCJOIN (R153). Enrols the crew in a multicast group at its record pan and copies the entry to every pan. -/
  | mcjoin (d a b : BitVec 6)
  /-- MCLEAVE (R155). Removes the crew from a multicast group after its accepted fills complete. -/
  | mcleave (d a b : BitVec 6)
  /-- MMA (R281). Checks and queues a 64-column matrix operation on one tile. -/
  | mma (d a b : BitVec 6)
  /-- MMA_N128 (R281). Checks and queues a 128-column matrix operation on an even tile pair. -/
  | mmaN128 (d a b : BitVec 6)
  /-- MCOMMIT (R290). Closes the warp's open matrix operations into a numbered batch written to s(d). -/
  | mcommit (d a b : BitVec 6)
  /-- MWAIT (R291). Waits until the batch numbered in s(a) completes. -/
  | mwait (d a b : BitVec 6)
  /-- PPOINT (R301). Pre-emption point: with a save pending, closes open operations and stops the warp with a live-tile mask. -/
  | ppoint (d a b : BitVec 6)
  /-- MDRAIN (R295). Checks and queues a drain of a tile through the epilogue into vector registers. -/
  | mdrain (d a : BitVec 6) (imm : BitVec 14)
  /-- NEST_LAUNCH (R332). Releases at device scope, reads and checks a nest record and launches it as a child nest, writing a status. -/
  | nestLaunch (d a b : BitVec 6)
  /-- NEST_GROW (R353). Asks the rake to set HC0 of one dimension of the point's nest, applied if at or above the mark. -/
  | nestGrow (d a b : BitVec 6)
  /-- NEST_IDX (R352). Writes index n of the current point to s(d). -/
  | nestIdx (d a b : BitVec 6)
  /-- PDONE (R348). Waits for the warp's work to drain, releases at device scope and parks until the next point. -/
  | pdone (d a b : BitVec 6)
  /-- SATOM (R141). Scalar routine invocation on a line with four request words, reply and status to s(d), s(d+1). -/
  | satom (d a b : BitVec 6)
  /-- RTINST (R130). Checks and installs a routine image under a virtual id at every pan and drains the old version. -/
  | rtinst (d a b : BitVec 6)
  /-- KVINV (R94). Invalidates KV cache entries of a sequence and block range, and every header cache, in the partition's clusters. -/
  | kvinv (d a b : BitVec 6)
  /-- COLL_START (R417). Records a collective in every warp; the communication warp checks it, takes holds and starts it. -/
  | collStart (d a b : BitVec 6)
  /-- UNASSIGNED_SCALAR_WORD (R55). A scalar word whose major opcode, minor or compare condition is unassigned issues and raises illegal-instruction. -/
  | unassignedScalarWord (w : BitVec 32)
  /-- LANE_NOP (R243). Lane word producing no result. -/
  | laneNop (w : LaneWord)
  /-- LANE_MOV (R252). Copies a source's bits at the type's width. -/
  | laneMov (w : LaneWord)
  /-- LANE_ADD (R247). Lane integer or float addition. -/
  | laneAdd (w : LaneWord)
  /-- LANE_SUB (R247). Lane integer or float subtraction. -/
  | laneSub (w : LaneWord)
  /-- LANE_MUL (R247). Lane integer or float multiplication. -/
  | laneMul (w : LaneWord)
  /-- LANE_MULHI (R247). Lane high half of an integer product. -/
  | laneMulhi (w : LaneWord)
  /-- LANE_MAD (R247). Lane integer multiply-add x × y + z. -/
  | laneMad (w : LaneWord)
  /-- LANE_MIN (R247). Lane integer or float minimum. -/
  | laneMin (w : LaneWord)
  /-- LANE_MAX (R247). Lane integer or float maximum. -/
  | laneMax (w : LaneWord)
  /-- LANE_ABS (R247). Lane absolute value. -/
  | laneAbs (w : LaneWord)
  /-- LANE_NEG (R247). Lane negation. -/
  | laneNeg (w : LaneWord)
  /-- LANE_SEL (R252). Selects one of two sources per lane by a predicate. -/
  | laneSel (w : LaneWord)
  /-- LANE_AND (R247). Lane bitwise AND. -/
  | laneAnd (w : LaneWord)
  /-- LANE_OR (R247). Lane bitwise OR. -/
  | laneOr (w : LaneWord)
  /-- LANE_XOR (R247). Lane bitwise XOR. -/
  | laneXor (w : LaneWord)
  /-- LANE_NOT (R247). Lane bitwise NOT. -/
  | laneNot (w : LaneWord)
  /-- LANE_SHL (R247). Lane shift left. -/
  | laneShl (w : LaneWord)
  /-- LANE_SHR (R247). Lane zero-filled shift right. -/
  | laneShr (w : LaneWord)
  /-- LANE_SRA (R247). Lane sign-filled shift right. -/
  | laneSra (w : LaneWord)
  /-- LANE_POPC (R247). Lane count of one bits. -/
  | lanePopc (w : LaneWord)
  /-- LANE_CLZ (R247). Lane count of leading zero bits. -/
  | laneClz (w : LaneWord)
  /-- LANE_CMP (R251). Lane comparison under the modifier's condition writing a predicate. -/
  | laneCmp (w : LaneWord)
  /-- FMA (R249). Lane float fused multiply-add with one rounding. -/
  | fma (w : LaneWord)
  /-- RNDI (R250). Rounds a float to an integral value by the modifier's direction. -/
  | rndi (w : LaneWord)
  /-- EXP2 (R253). Lane special function 2^x. -/
  | exp2 (w : LaneWord)
  /-- LOG2 (R253). Lane special function log2 x. -/
  | log2 (w : LaneWord)
  /-- RCP (R253). Lane special function 1/x. -/
  | rcp (w : LaneWord)
  /-- RSQRT (R253). Lane special function 1/√x. -/
  | rsqrt (w : LaneWord)
  /-- SQRT (R253). Lane special function √x. -/
  | sqrt (w : LaneWord)
  /-- SIN (R253). Lane special function sin x. -/
  | sin (w : LaneWord)
  /-- COS (R253). Lane special function cos x. -/
  | cos (w : LaneWord)
  /-- TANH (R253). Lane special function tanh x. -/
  | tanh (w : LaneWord)
  /-- SIGMOID (R253). Lane special function 1/(1 + e^−x). -/
  | sigmoid (w : LaneWord)
  /-- GELU (R253). Lane special function GELU by the tanh formula. -/
  | gelu (w : LaneWord)
  /-- CVT (R259). Converts between a source type and a destination type under NMODE. -/
  | cvt (w : LaneWord)
  /-- PAND (R261). Predicate AND. -/
  | pand (w : LaneWord)
  /-- POR (R261). Predicate OR. -/
  | por (w : LaneWord)
  /-- PXOR (R261). Predicate XOR. -/
  | pxor (w : LaneWord)
  /-- PANDN (R261). Predicate AND NOT. -/
  | pandn (w : LaneWord)
  /-- PNOT (R261). Predicate NOT. -/
  | pnot (w : LaneWord)
  /-- SHFL (R263). Delivers to each lane another lane's source within its sub-group, with a validity predicate. -/
  | shfl (w : LaneWord)
  /-- LRED (R264). Reduces a source across each sub-group in fixed butterfly steps. -/
  | lred (w : LaneWord)
  /-- VOTE (R265). Combines a predicate across the warp as any, all or ballot. -/
  | vote (w : LaneWord)
  /-- LANE_LD (R269). Lane load grouped by line, issued on path G. -/
  | laneLd (w : LaneWord)
  /-- LANE_ST (R269). Lane store grouped by line, issued on path G. -/
  | laneSt (w : LaneWord)
  /-- LD_TAP (R186). Touches scratchpad windows without loading. -/
  | ldTap (w : LaneWord)
  /-- LDS (R186). Loads from the crew's scratchpad, touching and waiting on windows. -/
  | lds (w : LaneWord)
  /-- STS (R186). Stores to the crew's scratchpad, waiting while a window is filling or busy-held. -/
  | sts (w : LaneWord)
  /-- LDR (R194). Loads from the scratchpad of a crew of the gang through a relaying pan. -/
  | ldr (w : LaneWord)
  /-- STR (R194). Stores to the scratchpad of a crew of the gang through a relaying pan. -/
  | str (w : LaneWord)
  /-- ATOM (R137). Invokes a line routine per executing lane with reply and status written back. -/
  | atom (w : LaneWord)
  /-- PF (R272). Prefetches the lines of executing lanes without faulting. -/
  | pf (w : LaneWord)
  /-- KVX (R91). Translates (sequence, position) through a block table into tagged addresses with a replay mask. -/
  | kvx (w : LaneWord)
  /-- UNASSIGNED_LANE_WORD (R61). A lane word whose opcode is absent from the lane map issues and raises illegal-instruction. -/
  | unassignedLaneWord (w : BitVec 96)
  /-- ROUTINE_INVOCATION (R144). An invocation leaves the tag pipeline, looks up the map, takes the bank lock and runs the routine on a working copy. -/
  | routineInvocation (pan bank : Nat)
  /-- ROUTINE_COMMIT (R145). The routine's last word completes; the working copy is committed, the lock freed and the reply sent. -/
  | routineCommit (pan bank : Nat)
  /-- ROUTINE_REPLY (R142). A routine reply reaches the invoking warp, writing reply and status and lowering path A. -/
  | routineReply (op lane : Nat)
  /-- TAG_PIPELINE_TAKE (R460). A bank's tag pipeline takes the request at the head of its input queue and performs it or sends it to the conflict queue. -/
  | tagPipelineTake (pan bank pos : Nat)
  /-- CONFLICT_QUEUE_RELEASE (R103). A request leaves the conflict queue when its cause clears. -/
  | conflictQueueRelease (pan pos : Nat)
  /-- HBM_FILL_COMPLETE (R102). Sectors fetched from HBM arrive at the pan and waiting requests proceed. -/
  | hbmFillComplete (pan line : Nat)
  /-- MIGRATION_LINE_ARRIVAL (R107). A migrating or recalled line's data arrive at the destination pan, which allocates it, evicts a victim and acknowledges. -/
  | migrationLineArrival (pan line : Nat)
  /-- MIGRATION_ACK (R107). The destination pan acknowledges a migrated line, and the home pan installs a forwarding entry and forwards waiting requests. -/
  | migrationAck (pan line : Nat)
  /-- EVICTION_NOTICE (R108). A pan that evicted a migrated line notifies the home pan, which deletes the forwarding entry. -/
  | evictionNotice (pan line : Nat)
  /-- PIN (R282). A pin request is performed at the pan like a load and the line is marked pinned. -/
  | pin (cluster op line : Nat)
  /-- UNPIN (R282). The last reference of a pinned line is released and the pan unpins it. -/
  | unpin (cluster line : Nat)
  /-- PCARVE_WRITE (R110). The Pier writes PCARVE, setting TARGET and MIGEN or being refused. -/
  | pcarveWrite (pan : Nat) (v : W64)
  /-- WAY_DRAIN_COMPLETE (R111). A draining way holds no valid line, becomes shadow and CURRENT rises. -/
  | wayDrainComplete (pan : Nat)
  /-- LANE_LOAD_RETURN (R269). Load data return to the warp, writing destinations and lowering G when the last lane completes. -/
  | laneLoadReturn (op line : Nat)
  /-- STORE_ACK (R269). A store's performed acknowledgement returns and G falls. -/
  | storeAck (op line : Nat)
  /-- FAR_END_ACK (R315). A peer or host acknowledges a performed write and the outstanding-acknowledgement count falls. -/
  | farEndAck (op line : Nat)
  /-- REMOTE_SCRATCH_ACCESS (R195). A relayed ldr or str reaches the target cluster and is performed or held by window state. -/
  | remoteScratchAccess (op lane : Nat)
  /-- REMOTE_SCRATCH_RETURN (R194). Data or acknowledgement of a remote scratch access returns and path X falls. -/
  | remoteScratchReturn (op lane : Nat)
  /-- WALK_START (R78). A queued TLB miss obtains a free walker and its walk begins. -/
  | walkStart (die : Nat)
  /-- WALK_COMPLETE (R77). A page walk ends in a leaf or a fault and completes every miss that joined it. -/
  | walkComplete (die walker : Nat)
  /-- KVX_ENTRY_RETURN (R92). A block-table read returns; when the word's last lane resolves, vD and pM are written and T falls. -/
  | kvxEntryReturn (op : Nat)
  /-- KVINV_ACK (R95). A cluster acknowledges a kvinv after its in-flight entry reads return; T falls when all have acknowledged. -/
  | kvinvAck (op cluster : Nat)
  /-- L1_AGE_OUT (R306). An L1 line is dropped no later than 2,048 core clocks after its fill. -/
  | l1AgeOut (cluster line : Nat)
  /-- PTBASE_WRITE (R72). A write of a partition's table base, accepted or refused with REJ. -/
  | ptbaseWrite (part : Nat) (v : W64)
  /-- XINVC_GO (R83). Writing GO starts a shootdown of the range in XINVA, or sets REJ. -/
  | xinvcGo (part : Nat) (v : W64)
  /-- SHOOTDOWN_DONE (R84). Once readers finish, pins are released and prefetches cancelled, the shootdown sets DONE. -/
  | shootdownDone (part : Nat)
  /-- COPY_JOB_START (R188). A copy engine takes a queued window copy job and starts it. -/
  | copyJobStart (engine : Nat)
  /-- WINDOW_FILL_COMPLETE (R191). The last element of a window is written; it becomes present, FILLS rises and the gate receives an arrival. -/
  | windowFillComplete (crew win : Nat)
  /-- GROUP_ASK (R477). The record pan routes an ask of a group member to a record, creating, joining, resending or raising a group error. -/
  | groupAsk (part gid : Nat)
  /-- GROUP_TIMER_EXPIRY (R161). A holding record's timer runs out, it becomes ready and offers go to every member. -/
  | groupTimerExpiry (part gid : Nat)
  /-- GROUP_OFFER (R163). A member's cluster answers an offer by its bound window's state. -/
  | groupOffer (part gid mem : Nat)
  /-- GROUP_ANSWER (R162). The record pan receives an answer; when all have answered it asks each line's pan to send the fill. -/
  | groupAnswer (part gid mem : Nat)
  /-- GROUP_FILL_LINE (R164). A multicast line arrives at an accepting cluster; the last line makes the window present, arrives on its gate and sends DONE. -/
  | groupFillLine (part gid mem line : Nat)
  /-- GROUP_DONE (R162). DONE from every accepting member moves the record to completing and writes the completion record. -/
  | groupDone (part gid mem : Nat)
  /-- COMPLETION_WRITE_PERFORMED (R166). The completion store is performed; the record lingers and INIT's completion gate receives an arrival. -/
  | completionWritePerformed (part gid : Nat)
  /-- LINGER_EXPIRY (R162). A lingering record's linger time expires and it is freed. -/
  | lingerExpiry (part gid pos : Nat)
  /-- MATRIX_OP_START (R281). With every pin and hold in place, the engine begins computing a queued operation. -/
  | matrixOpStart (cluster op : Nat)
  /-- MATRIX_OP_COMPLETE (R281). An operation writes its tiles, releases pins and holds and merges flags; the batch completes when all its operations have. -/
  | matrixOpComplete (cluster op : Nat)
  /-- DRAIN_PERFORM (R299). A queued drain reads its tile in tile order and writes the epilogue results to registers. -/
  | drainPerform (cluster op : Nat)
  /-- GATE_ARRIVAL (R365). Arrivals reaching a gate in a core clock are counted and fire completed phases, waking waiters. -/
  | gateArrival (crew : Nat)
  /-- GTRY_TIMEOUT (R367). The hinted time of a parked gtry passes and it returns false. -/
  | gtryTimeout (warp : Nat)
  /-- VGROW_GRANT (R208). The oldest waiting vgrow finds enough free granules and is granted. -/
  | vgrowGrant (cluster pipe : Nat)
  /-- VGROW_REFUSE (R209). When every serving warp of a pipe waits in vgrow, the youngest request is refused. -/
  | vgrowRefuse (cluster pipe : Nat)
  /-- GANG_PLACEMENT (R343). The rake places one gang of a nest in a span when a point could be released and resources allow. -/
  | gangPlacement (nest : Nat)
  /-- POINT_RETIRE (R340). A finished point with no children retires, its row updated and rows entered or left. -/
  | pointRetire (nest point : Nat)
  /-- CREW_PREEMPT (R394). A crew-level pre-emption request discards, drains or prepares to save each crew of a gang. -/
  | crewPreempt (crew : Nat)
  /-- TSAVE_EXPIRY (R394). TSAVE expires and every warp stops at its next word boundary for a full save. -/
  | tsaveExpiry (crew : Nat)
  /-- CREW_SAVE (R395). Once its warps are stopped, a crew's fills are withdrawn, its accesses drain and its context is written. -/
  | crewSave (crew : Nat)
  /-- CREW_RESTORE (R398). A saved gang is placed again, contexts reloaded, held arrivals applied and streams restarted. -/
  | crewRestore (nest gang : Nat)
  /-- NEST_PREEMPT (R402). A nest-level save stops release, drains crews and writes the save area. -/
  | nestPreempt (nest : Nat)
  /-- PARTITION_PREEMPT (R403). A partition is halted and swapped into shadow storage. -/
  | partitionPreempt (part : Nat)
  /-- ARRIVAL_RETURN (R405). An arrival for a crew not in the named slot returns to the pan, which counts, forwards or discards it. -/
  | arrivalReturn (pos : Nat)
  /-- TRAP_RESUME (R384). After a RESUME-class trap record is written, the Pier resumes the stopped warp. -/
  | trapResume (warp : Nat)
  /-- TANS_WRITE (R387). The driver's answer resumes or ends the warp stopped by an ANSWER-class trap. -/
  | tansWrite (part : Nat) (v : W64)
  /-- FRES_WRITE (R391). The driver resolves a fault record by retry or fail. -/
  | fresWrite (part : Nat) (v : W64)
  /-- NOTIFY (R375). A notify write updates a queue's TAIL or counts it stale or enters OVERRUN. -/
  | notify (queue : Nat) (v : W64)
  /-- PACKET_NOP (R372). The queue hart reads a NOP packet at HEAD. -/
  | packetNop (slot : Nat)
  /-- PACKET_LAUNCH (R372). The queue hart launches the nest named by a LAUNCH packet and stores its status. -/
  | packetLaunch (slot : Nat)
  /-- PACKET_WAIT (R372). The queue hart blocks on a memory word until the packet's condition holds. -/
  | packetWait (slot : Nat)
  /-- PACKET_SIGNAL (R372). After earlier launches complete, the queue hart stores VALUE at ADDR. -/
  | packetSignal (slot : Nat)
  /-- LAUNCH_RETRY (R372). A launch refused for room or quota is retried at a nest completion in the partition. -/
  | launchRetry (slot : Nat)
  /-- COMPLETION_SIGNAL (R372). The queue hart stores SVALUE at SADDR after a launched nest completes and raises the IRQ vector if requested. -/
  | completionSignal (pos : Nat)
  /-- SLOT_POLL (R377). The waiting hart re-reads the slot at HEAD at least every 2 µs. -/
  | slotPoll (slot : Nat)
  /-- QCB_WRITE (R378). The driver writes a queue control block, enabling the queue and loading HEAD and TAIL or being refused. -/
  | qcbWrite (queue : Nat) (block : List Byte)
  /-- SCHEDULE_DECISION (R380). The scheduler hart maps pending queues to free, idle or lower-priority slots. -/
  | scheduleDecision (part : Nat)
  /-- SCHEDULER_TICK (R380). The 50 µs tick triggers a scheduling decision. -/
  | schedulerTick
  /-- QUEUE_MAPPED_200US (R380). A queue completes 200 µs mapped and a scheduling decision is made. -/
  | queueMapped200us (slot : Nat)
  /-- QUEUE_UNMAP (R380). The victim hart ends its current step, its block is saved and the pending queue is mapped. -/
  | queueUnmap (slot : Nat)
  /-- WAIT_MONITOR_ARM (R382). A write to WMCOND arms a queue hart's wait monitor. -/
  | waitMonitorArm (slot : Nat) (cond : W64)
  /-- WAIT_MONITOR_FIRE (R382). A write to the watched line makes the condition true and the monitor fires. -/
  | waitMonitorFire (slot : Nat)
  /-- WAIT_MONITOR_POLL (R382). For host or peer memory the monitor reads the word every 1 µs. -/
  | waitMonitorPoll (slot : Nat)
  /-- PCTL_WRITE (R425). A write of a partition's PCTL, accepted or refused with REJ. -/
  | pctlWrite (part : Nat) (v : W64)
  /-- PWIN_WRITE (R426). A write of a partition memory window, accepted or refused. -/
  | pwinWrite (part win : Nat) (v : W64)
  /-- APERTURE_ACCESS (R428). A host access through the memory aperture is performed at a pan, at a stack, or refused in a hole. -/
  | apertureAccess (acc : Aperture)
  /-- FEATCTL_GO (R432). Writing GO negotiates features, setting OK or BAD. -/
  | featctlGo
  /-- FEATCTL_RELOAD (R438). In minimal mode, RELOAD verifies the recovery-window bundle and writes it to flash or stays minimal. -/
  | featctlReload
  /-- FUNCTION_LEVEL_RESET (R433). A function-level reset disables every partition and clears FEATCTL. -/
  | functionLevelReset
  /-- POWER_ON (R434). At power-on the mask ROM runs the measured start sequence. -/
  | powerOn
  /-- FWTIMEOUT (R434). The firmware fails to write BOOTOK within 2 s and the start fails. -/
  | fwtimeout
  /-- BOOTOK (R434). The firmware writes BOOTOK, clearing FSC and raising the device vector. -/
  | bootok
  /-- POWER_SAMPLE (R439). Every 100 µs the power hart samples power and raises or lowers the throttle step. -/
  | powerSample (milliwatts : Nat)
  /-- H15GO_START (R441). Writing H15GO starts an IEEE 1500 wrapper operation on an HBM stack. -/
  | h15goStart (stack : Nat)
  /-- CWCTL_RETRAIN (R442). Writing CWCTL bit 0 retrains a DOWN causeway port from step 1. -/
  | cwctlRetrain (port : Nat)
  /-- CWSELF_WRITE (R412). Sets the device's own peer number, ignored when unset value, reserved bits or a port is UP. -/
  | cwselfWrite (v : W64)
  /-- CWRQ_GO (R412). Asks the links hart to set a CWROUTE entry, refused with REJ in the listed cases. -/
  | cwrqGo (v : W64)
  /-- FLIT_RECEIVE (R409). A flit arrives; good flits are delivered in order, bad or out-of-sequence ones are refused. -/
  | flitReceive (port : Nat) (flit : Flit)
  /-- FLIT_ACK (R409). A cumulative acknowledgement frees retry-buffer flits; a refusal triggers a resend. -/
  | flitAck (port seq : Nat) (refused : Bool)
  /-- PORT_DOWN (R411). A port goes DOWN after 8 failed resends or loss of receiver lock and discards its retry buffer. -/
  | portDown (port : Nat)
  /-- CAUSEWAY_REQUEST (R413). A remote request is accepted under an inbound grant and performed at the home pan, or refused. -/
  | causewayRequest (port : Nat)
  /-- COLL_STEP (R419). A rank's own flag word matches, its slot is read and reduced or gathered into DST and the next step begins. -/
  | collStep (coll : Nat)
  /-- COLL_COMPLETE (R420). DST is complete; one arrival on the gate and the holds are released. -/
  | collComplete (coll : Nat)
  /-- COLL_ABORT (R422). An ABORT for the current attempt stops the rank and advances ATTEMPT. -/
  | collAbort (coll attempt : Nat)
  /-- COLL_READY (R423). READY from every rank for an attempt starts its step 0. -/
  | collReady (coll attempt rank : Nat)
  /-- REGISTER_WRITE (R428). A write to a device or BAR register that has no behaviour of its own stores the value. -/
  | registerWrite (addr : Nat) (v : W64)
  /-- SCALAR_LOAD_RETURN (R224). The data of a scalar load return: s(d) is written, or set to 0 with a DATAERR trap on poison, and G falls. -/
  | scalarLoadReturn (op : Nat)
  /-- TRR_WRITE (R430). The driver writes TRR or FRR to consume records, freeing ring space so held trap or fault records are written and their warps move on. -/
  | trrWrite (part : Nat) (fault : Bool) (v : W64)
  /-- NEST_RESTORE (R402). A saved nest's save area is reloaded into a free record slot of a rake of its partition and release resumes. -/
  | nestRestore (nest : Nat)
  /-- PARTITION_RESTORE (R403). A swapped-out partition is swapped back from shadow storage and its nests, crews and queues resume. -/
  | partitionRestore (part : Nat)
  /-- PWRCTL_WRITE (R440). The power hart sets or clears a PWRCTL bit, enabling or disabling one rail. -/
  | pwrctlWrite (v : W64)
  /-- RAIL_GOOD (R440). An enabled rail reaches regulation and its PWRSTAT bit is set. -/
  | railGood (rail : Nat)
  /-- H15GO_DONE (R441). An IEEE 1500 wrapper operation on an HBM stack completes and H15GO reads 0 with its result in H15DR. -/
  | h15goDone (stack : Nat) (dr : W64)
  /-- CAUSEWAY_PORT_UP (R442). A training port achieves lock and flit sync with the far end and its state becomes UP. -/
  | causewayPortUp (port : Nat)
  /-- ZEROING_COMPLETE (R427). The zeroing of a disabled partition's memory ends, and the memory may be granted to another partition. -/
  | zeroingComplete (part : Nat)
  deriving DecidableEq, Repr

end Sys2Proof
end

