-- ==== Sys2Proof/Machine/State.lean ====
section
/-!
DEFINITION. The state of the machine: everything the spec gives a Y4, in plain data, with the model's own bookkeeping
marked "own". A structure's fields cite the rule that names them. Sparse tables (Tab) read an absent key as the default
that the accessor in Machine/Ops.lean names.
-/
namespace Sys2Proof.Machine

/-- Why the machine stops with a fault. -/
inductive Fault where
  /-- Raised by the meaning of a scalar or lane word when no warp of that stream is issuing a word. The step function never
  executes a word without one, so no run meets it. Safe. -/
  | noIssuer
  deriving DecidableEq, Repr

/-- Why an instruction has no meaning. -/
inductive Refusal where
  /-- Raised by the dispatch for an instruction the model does not cover. Safe. -/
  | notModelled (mnemonic : String)
  deriving DecidableEq, Repr

/-- Memory: (address, byte) pairs, addresses rising, no entry equal to what an unlisted address reads as. -/
abbrev Mem := List Host.Cell

/-- The four access paths and their counters (R16, R196). -/
inductive Path where
  | g | x | a | t
  deriving DecidableEq, Repr

/-- The two streams of a warp (R213), as STREAM of a trap record numbers them (R386). -/
inductive Stream where
  | scalar | lane | matrix | engine
  deriving DecidableEq, Repr

/-- Codes of translation and protection faults (R79). -/
inductive FCode where
  | notMapped | writeProt | execProt | nonCanon | pteFormat | outside | tagMisuse | kvFormat | blockMiss
  deriving DecidableEq, Repr

/-- Trap classes (R384). -/
inductive Cls where
  | illInst | illOpnd | align | jtBound | jtLand | prot | routine | dataErr | groupErr | nestDepth | user | sysc | halt
  deriving DecidableEq, Repr

/-- Scopes (R15, R58), narrowest first. -/
inductive Scope where
  | w | c | g | d | v | y
  deriving DecidableEq, Repr

/-- A leaf translation (R73): the physical base of its page, its size code (0, 1, 2 as in R83) and its permissions. -/
structure Leaf where
  base : Nat
  size : Nat
  kind : Nat
  x : Bool
  w : Bool
  deriving DecidableEq, Repr

/-- What a walk answers: a leaf or a fault (R77, R79). -/
inductive XRes where
  | leaf (l : Leaf)
  | fault (c : FCode)
  deriving DecidableEq, Repr

/-- A cached leaf (R76): partition and virtual base of the page. -/
structure TlbEntry where
  part : Nat
  va : Nat
  leaf : Leaf
  deriving DecidableEq, Repr

/-- A cached table pointer (R76): level 3, 2 or 1 entry for an address. -/
structure PtrEntry where
  part : Nat
  level : Nat
  tag : Nat
  table : Nat
  deriving DecidableEq, Repr

/-- One access counted on a path (R196): accesses retire in issue order. -/
structure Out where
  id : Nat
  done : Bool
  deriving DecidableEq, Repr

/-- A block in the lane queue with its snapshot (R214, R215). -/
structure Block where
  base : Nat
  count : Nat
  sregs : Tab W64
  nmode : W64
  lanes : Nat
  valloc : Nat
  /-- the translations that lx obtained for its pages, until its last word is fetched (R84, R214) -/
  xs : List (Nat × XRes)
  /-- a shootdown in progress has removed one of them, and waits for the block (R84) -/
  under : Bool
  deriving DecidableEq, Repr

/-- Why a scalar thread does not issue (R360, R361); `run` is runnable, `again` waits for its word to be able to issue. -/
inductive Park where
  | run
  | again
  /-- parked in gwait or gtry on a gate; for gtry, the clock its hinted time passes and its predicate (R367) -/
  | gate (g : Nat) (deadline : Option (Nat × Nat))
  /-- parked until the fault records of its word are resolved (R80) -/
  | records (fseqs : List Nat)
  /-- waiting in a vgrow of n granules into predicate q (R208) -/
  | grow (n q : Nat)
  /-- after pdone (R348) -/
  | point
  /-- stopped at a ppoint with a save pending (R301) -/
  | save
  /-- exited or not yet started -/
  | off
  deriving DecidableEq, Repr

/-- Why a lane stream does not issue: `again` waits for its word to be able to issue (R246, R360), a replay (R81), a window wait (R186). -/
inductive LPark where
  | run
  | again
  | replay (mask : Mask) (op : Nat) (fseqs : List Nat)
  /-- a window wait; `free` says that the word also waits for holds to end (R182) -/
  | window (wins : List Nat) (fseqs : List Nat) (free : Bool)
  /-- waits for the records of its code fetch (R80) -/
  | fetch (fseqs : List Nat)
  deriving DecidableEq, Repr

/-- How an END, RESUME or ANSWER trap is to go on (R384, R385). -/
structure Stop where
  cls : Cls
  stream : Stream
  /-- number of the trap (own) -/
  num : Nat
  /-- trap sequence number once the record is written (R386) -/
  tseq : Option Nat
  written : Bool
  /-- later traps of the stopped warp whose records are not written (R384) -/
  later : List Nat
  deriving DecidableEq, Repr

/-- A trap record (R386, R387) and the number of its trap. -/
structure TrapRec where
  num : Nat
  waddr : W64
  block : W64
  spc : W64
  lmask : Mask
  aux : W64
  nestva : W64
  cls : Cls
  stream : Stream
  cluster : Nat
  wslot : Nat
  part : Nat
  cslot : Nat
  args : List W64
  /-- clock of the trap (own): the records of a clock are written once it has passed, in the order of R387 -/
  at_ : Nat
  deriving DecidableEq, Repr

/-- A fault record (R82) and the agent that waits for its resolution (own). -/
structure FaultRec where
  addr : Nat
  seq : Nat
  block : Nat
  code : FCode
  kind : Nat
  cluster : Nat
  warp : Nat
  part : Nat
  fseq : Nat
  deriving DecidableEq, Repr

/-- A batch of matrix operations (R290 to R292). -/
structure Batch where
  num : Nat
  ops : List Nat
  flags : W64
  err : Option W64
  deriving DecidableEq, Repr

/-- An install in progress or waiting for earlier ones (R130). -/
structure Install where
  /-- place in issue order (own) -/
  num : Nat
  /-- the register of its status -/
  dst : Nat
  id : Nat
  /-- map entry to be put in place, with its version and the RAM slot that it takes once the install has begun -/
  entry : W64
  /-- the code words read from the image (R131) -/
  code : List W32
  begun : Bool
  /-- the entry that it replaces -/
  old : W64
  /-- pans, and clusters as 1024 + number, that have still to switch their copies (R131) -/
  todo : List Nat
  deriving DecidableEq, Repr

/-- A copy description (R174) as its 64 bytes, little-endian. -/
abbrev Desc := BitVec 512

/-- Lines that a word in progress has read with requests of its own, and the operation of those on their way (own). -/
structure Reads where
  op : Option Nat
  lines : List (Nat × Line × BitVec 4)
  deriving DecidableEq, Repr

/-- A warp (R198, R200, R213). -/
structure Warp where
  cluster : Nat
  wslot : Nat
  pipe : Nat
  cslot : Nat
  wcrew : Nat
  spc : W64
  sregs : Tab W64
  q : BitVec 8
  vregs : Tab LaneReg
  preds : Tab Mask
  wstat : W64
  nmode : W64
  lanes : Nat
  valloc : Nat
  queue : List Block
  /-- index of the next lane word in the head block (R213) -/
  lword : Nat
  /-- blocks whose words have all issued (own), and the drains to come: operation, blocks before it, registers (R299) -/
  blocks : Nat
  drains : List (Nat × Nat × List Nat)
  outG : List Out
  outX : List Out
  outA : List Out
  outT : List Out
  /-- far-end acknowledgements outstanding (R315) -/
  acks : Nat
  /-- registers waiting for a result, as (operation, code); scalar registers and lane operand codes (R225, R246, R299) -/
  pendS : List (Nat × Nat)
  pendV : List (Nat × Nat)
  /-- invocations that act as an acquire whose fence is not complete (R143): operation, scope, and whether it is a satom's -/
  acquires : List (Nat × Scope × Bool)
  wph : Tab (BitVec 32)
  /-- L, the last batch number (R290) -/
  lastBatch : Nat
  openOps : List Nat
  batches : List Batch
  /-- data errors of completed batches to be taken at the next scalar word (R287) -/
  batchErr : List W64
  park : Park
  lpark : LPark
  /-- live mask given at the ppoint where the warp stopped (R301) -/
  live : W64
  /-- the description that a win.bind has read before its wait (R178) -/
  bind : Option Desc
  stop : Option Stop
  /-- translations obtained for the word being issued (own) -/
  xs : List (Nat × XRes)
  xl : List (Nat × XRes)
  /-- what the scalar word and the lane word being issued have read (own; R68, R305) -/
  rd : Reads
  rl : Reads
  install : Option Install
  /-- its coll.start (R417): 0 not recorded, 1 recorded and waiting at the word, 2 recorded and past it -/
  collIn : Nat
  ready : Nat
  rank : Nat
  lready : Nat
  deriving DecidableEq, Repr

/-- A gate (R365). -/
structure Gate where
  n : Nat
  cnt : Nat
  gph : BitVec 32
  deriving DecidableEq, Repr

/-- Window states (R180, R182). -/
inductive WState where
  | absent | filling | present
  deriving DecidableEq, Repr

/-- Who fills a window (R163, R188). -/
inductive Filler where
  | none
  /-- a copy job -/
  | copy
  /-- the crew's own ask to a group -/
  | ask
  /-- a group fill the crew has accepted, or a resend -/
  | fill
  deriving DecidableEq, Repr

/-- An entry of a crew's region table (R174, R180, R182). -/
structure Win where
  desc : Desc
  valid : Bool
  state : WState
  gerr : Bool
  bst : Nat
  holds : Nat
  fills : Nat
  filler : Filler
  /-- touching word: warp slot, address, block, stream (R190) -/
  toucher : Nat
  twaddr : Nat
  tblock : Nat
  /-- lines of a group fill received so far, as a bit mask -/
  got : Nat
  /-- a shootdown in progress waits for the load that its ask translated for (R84) -/
  under : Bool
  /-- accesses of the touching warp with a smaller number come before the touch (own; R189, R319) -/
  tid : Nat
  /-- its ask is not sent yet (own; R158): 1, the touching word tries again; 2, a save has withdrawn it, or the restore has started it again -/
  asking : Nat
  deriving DecidableEq, Repr

/-- A point (chapter 14) in progress or finished. -/
structure Pt where
  idx : List Int
  linear : Nat
  deriving DecidableEq, Repr

/-- A save request of a crew (R394). -/
inductive SaveReq where
  | none
  /-- pending; the crew saves at ppoint -/
  | pending
  /-- every warp has stopped, at ppoint, pdone or for an answer; the save is under way -/
  | atPoint
  /-- TSAVE has passed: full save -/
  | full
  /-- discard (R396) -/
  | discard
  /-- no further point; exits -/
  | drain
  deriving DecidableEq, Repr

/-- The identity that arrivals carry (R405). -/
structure CrewId where
  part : Nat
  die : Nat
  slot : Nat
  num : Nat
  deriving DecidableEq, Repr

/-- A crew (R344, R399). -/
structure Crew where
  id : CrewId
  cluster : Nat
  cslot : Nat
  cidx : Nat
  gang : Nat
  warps : List Nat
  gates : Tab Gate
  /-- arrivals that have reached the crew's gates and are not yet counted (R365) -/
  arrivals : Tab Nat
  wins : Tab Win
  sbase : Nat
  ssize : Nat
  /-- declared tile to physical tile (R273) -/
  tiles : Tab Nat
  token : Nat
  point : Option Pt
  /-- groups joined, as (GID, MIDX) (R151) -/
  groups : List (Nat × Nat)
  save : SaveReq
  /-- clock of the request (R393) -/
  saveAt : Nat
  /-- the (s(a), gate) that the first warp of coll.start recorded (R417) -/
  collArg : Option (W64 × Nat)
  deriving DecidableEq, Repr

/-- A line of an L1 (R102, R306): data, clock of its reading at the pan, hint and last use. -/
structure L1Line where
  data : Line
  filled : Nat
  hint : Nat
  used : Nat
  /-- place of that reading among the requests performed (own; Sub.order) -/
  order : Nat
  deriving DecidableEq, Repr

/-- The eight latches of a lane pipe (R43, R211): 64 lanes of 64 bits each, lane k at bits [64k+63:64k]. -/
structure Pipe where
  latch : Tab (BitVec 4096)
  /-- validity of b0 to b7 -/
  valid : BitVec 8
  /-- counts invalidations (own): a load's latch is written only if none came between -/
  epoch : Nat
  /-- vgrow requests, oldest first: warp and granules (R208) -/
  grow : List (Nat × Nat)
  /-- the warp whose block the pipe is issuing, between switch points (R363) -/
  cur : Option Nat
  /-- no word issues before this clock: the stall count of a block's last word, whose yield bit is clear (R46) -/
  hold : Nat
  /-- the warp whose special-function word waits for the cluster's lanes (R256) -/
  sfuq : Option Nat
  /-- the clock after that in which it last issued (own; R363) -/
  issued : Nat
  deriving DecidableEq, Repr

/-- An operation of the matrix queue (R281, R293, R418). -/
inductive MKind where
  | mma (n : Nat) (a b : W64) (rows : W64) (fblock : BitVec 256)
  | drain (dst : Nat) (desc : Option (BitVec 256)) (bias scale : List W32) (nmode : W64)
  /-- a collective reading its source tile -/
  | coll
  deriving DecidableEq, Repr

structure MOp where
  warp : Nat
  crew : Nat
  waddr : Nat
  kind : MKind
  /-- declared tiles named -/
  tiles : List Nat
  word : W32
  started : Bool
  /-- virtual lines of its global operands, not yet pinned -/
  vlines : List Nat
  /-- lines pinned for the operation so far, as (virtual, physical) (R282) -/
  pins : List (Nat × Nat)
  /-- windows held, and those that it has touched and will hold when they become present (R182, R283) -/
  holds : List Nat
  wants : List Nat
  /-- fault records it waits for (R286) -/
  fseqs : List Nat
  /-- flags gathered and first poisoned location (R287, R292) -/
  flags : W64
  err : Option W64
  deriving DecidableEq, Repr

/-- A slot of the hold buffer (R274): the line's value at its pin, and the operations that reference it. -/
structure Hold where
  data : Line
  poison : BitVec 4
  refs : List Nat
  /-- the virtual lines that it was pinned for, with their partition (R84, R274) -/
  names : List (Nat × Nat)
  deriving DecidableEq, Repr

/-- A key of the KV cache (R92). -/
structure KvEntry where
  part : Nat
  header : Nat
  seq : Nat
  block : Nat
  entry : W64
  deriving DecidableEq, Repr

structure KvHeader where
  part : Nat
  header : Nat
  data : BitVec 256
  deriving DecidableEq, Repr

/-- A cluster: the state of chapters 4, 8, 9 and 12 that its warps share. -/
structure Cluster where
  l1 : Tab L1Line
  tlb : List TlbEntry
  pipes : Tab Pipe
  /-- last special-function grant: 4 × (clock + 1) + pipe; 3 before the first (R256) -/
  sfu : Nat
  /-- scratchpad bytes by scratch address (R171), in the form of Mem -/
  scratch : Mem
  /-- poisoned bank words by scratch address div 16 (R390) -/
  spoison : List Nat
  /-- accumulator tiles: physical tile x 64 + row, 64 words each (R273) -/
  tiles : Tab LaneReg
  mq : List Nat
  holds : Tab Hold
  kv : List KvEntry
  kvh : List KvHeader
  /-- line requests not yet on the request viaduct, as (operation, key) (R459) -/
  outq : List (Nat × Nat)
  /-- entry reads of kvx words that wait while 16 are in flight, as (operation, key) (R92) -/
  kvq : List (Nat × Nat)
  /-- kvinv operations the cluster has still to acknowledge, with the entry reads that were in flight (R95) -/
  kvinv : List (Nat × List Nat)
  /-- its copy of entries 32 to 63 of the routine map (R133) -/
  rmap : Tab W64
  /-- core clock in which it last sent requests, and how many it sent in it (own; R459) -/
  sentAt : Nat
  sent : Nat
  /-- the clock after that in which its front end last issued (own; R362) -/
  issued : Nat
  deriving DecidableEq, Repr

/-- What a request asks of a line. -/
inductive Act where
  | load
  /-- byte lane, value and mask of the bits written (nibbles write half a byte, R268) -/
  | store (bytes : List (Nat × Byte × Byte))
  | routine (id : Nat) (word : Nat) (a0 a1 a2 a3 : W64)
  | clean
  | flush
  | zero
  | drop
  deriving DecidableEq, Repr

/-- Where a request stands. -/
inductive SubSt where
  /-- in the cluster, or in a queue of a pan -/
  | sent
  /-- performed at its pan; the reply is on its way -/
  | performed
  /-- passed to the causeway, or a write that its relay has acknowledged -/
  | far
  /-- its reply has arrived -/
  | back
  deriving DecidableEq, Repr

/-- One request of an operation: one line, or one lane's invocation. -/
structure Sub where
  line : Nat
  act : Act
  st : SubSt
  data : Line
  poison : BitVec 4
  /-- clock at which it was performed -/
  at_ : Nat
  /-- the reply may not be installed in L1 -/
  noInstall : Bool
  status : Nat
  reply : W64
  /-- the causeway port that took it (R411); for kvx, the header address -/
  version : Nat
  /-- the lanes it serves -/
  lanes : Mask
  /-- its cache hint (R48, R73) -/
  hint : Nat
  /-- 64 KiB virtual pages of its lanes' addresses, and whether a shootdown in progress waits for it (R84) -/
  pages : List Nat
  under : Bool
  /-- place among the requests that have left their clusters, then among those performed (own): R107, R114, R305 -/
  order : Nat
  /-- the pan that performed it; noPan for a value of the L1 -/
  pan : Nat
  deriving DecidableEq, Repr

/-- What an operation is, with what its replies write. -/
inductive OpKind where
  | load (ty dst lsel : Nat) (nowb : Bool)
  | store
  | pf
  | atom (ty dst lsel : Nat) (nowb trapBit : Bool)
  | satom (d : Nat)
  | sload (major d : Nat)
  /-- lines that a scalar or a lane word reads before it goes on (Warp.rd, Warp.rl) -/
  | fetch (lane : Bool)
  | sstore
  | cache
  | kvx (dst lsel pm : Nat) (nowb : Bool)
  | kvinv (seq first count : Nat)
  | ldr (ty dst lsel : Nat) (nowb : Bool)
  | str
  /-- a request of a peer that came in on a port (R413) -/
  | peer (port tag : Nat)
  /-- a store of the device's own agents to a peer page (R101, R372) -/
  | agent
  /-- a pin that waits at its pan for a matrix operation and a virtual line (R282) -/
  | pin (mop vline : Nat)
  deriving DecidableEq, Repr

/-- A lane's part of a remote scratch access: target crew, offset, size and data (R194). -/
structure Remote where
  crew : Nat
  off : Nat
  size : Nat
  data : W64
  done : Bool
  back : Bool
  poison : Bool
  deriving DecidableEq, Repr

/-- A memory word with accesses outstanding (own bookkeeping for R81, R196, R269). -/
structure MemOp where
  warp : Nat
  part : Nat
  cluster : Nat
  stream : Stream
  path : Path
  kind : OpKind
  waddr : Nat
  block : Nat
  /-- blocks of the warp that had issued whole at its issue (own; R299) -/
  blk : Nat
  hint : Nat
  /-- the lanes that execute the word -/
  lanes : Mask
  /-- lanes still to be replayed (R81) -/
  left : Mask
  /-- lane to physical (or nibble, or kvx block-table) address -/
  addr : Tab Nat
  subs : Tab Sub
  remotes : Tab Remote
  /-- lanes that read poison and the location, lowest lane first (R271, R478) -/
  bad : List (Nat × W64)
  /-- lanes whose routine did not return OK, with the status word (R140) -/
  failed : List (Nat × W64)
  /-- epoch of the pipe at issue, for the latch -/
  epoch : Nat
  /-- lanes of its latch that later words have written since -/
  stale : Mask
  /-- clusters still to acknowledge a kvinv (R94) -/
  waits : List Nat
  /-- 64 KiB virtual pages it translated (R84) -/
  pages : List Nat
  deriving DecidableEq, Repr

/-- A line at its pan (R102, R106, R109, R111). -/
structure PanLine where
  way : Nat
  valid : BitVec 4
  dirty : BitVec 4
  filling : Bool
  /-- sectors on their way from HBM -/
  want : BitVec 4
  moving : Bool
  /-- references of tile fetch units (R274, R282), as cluster numbers -/
  pins : List Nat
  /-- core clock in which the read of a copy engine owns it (R189: two fabric clocks at most, less than a core clock) -/
  owner : Option Nat
  lastCluster : Nat
  run : Nat
  hint : Nat
  used : Nat
  /-- flushes that end when the line is unpinned (R119) -/
  flushAt : List (Nat × Nat)
  /-- its move waits until the recall of the oldest forwarding entry has made room (R108) -/
  due : Bool
  deriving DecidableEq, Repr

/-- A routine running under a bank's line lock (R104, R121, R144). -/
structure Run where
  op : Nat
  key : Nat
  line : Nat
  /-- the slot and the version that it looked up -/
  slot : Nat
  version : Nat
  deriving DecidableEq, Repr

/-- Group-load record states (R162). -/
inductive GState where
  | holding | offering | filling | completing | lingering
  /-- after a group error, until its completion record is performed (R169) -/
  | failing
  deriving DecidableEq, Repr

/-- A group-load record (R160 to R169). -/
structure GRec where
  gid : Nat
  state : GState
  srcpa : Nat
  size : Nat
  init : Nat
  /-- the crew that is INIT (R166) -/
  initId : CrewId
  ask : Mask
  born : Nat
  offered : Mask
  /-- members whose clusters have answered, and whose answers have reached the pan -/
  sent : Mask
  answered : Mask
  accepted : Mask
  /-- members whose windows are filled, and whose DONE has reached the pan -/
  filled : Mask
  done : Mask
  seq : Nat
  /-- 0 all asked, 1 timer, 2 group error -/
  status : Nat
  left : Bool
  dataErr : Bool
  errpa : Nat
  /-- lines sent so far, with their values (one send each) -/
  lines : Tab (Line × BitVec 4)
  /-- asks queued while the load is under way, as (MIDX, SRCPA, size) -/
  waiting : List (Nat × Nat × Nat)
  linger : Nat
  /-- a shootdown in progress waits for it (R84) -/
  under : Bool
  /-- its completion record's store to a peer page that is not acknowledged (own) -/
  put : Option Nat
  deriving DecidableEq, Repr

/-- A mailbox entry of a swapped-out crew, or a forwarding entry once restored (R404, R405). -/
structure Mail where
  id : CrewId
  counts : Tab Nat
  /-- arrivals withheld while a count is full -/
  held : List Nat
  fwd : Option Nat
  deriving DecidableEq, Repr

/-- An arrival travelling to a crew from outside its warps (R405). -/
structure Arr where
  cluster : Nat
  cslot : Nat
  id : CrewId
  gate : Nat
  /-- returned to the pan because the slot holds another crew -/
  returned : Bool
  deriving DecidableEq, Repr

/-- Bytes of a saved crew's context, or of the part of it that a place holds (R399, R400). -/
structure Image where
  id : CrewId
  size : Nat
  bytes : Nat
  deriving DecidableEq, Repr

/-- A pan (chapters 5 to 7). -/
structure Pan where
  lines : Tab PanLine
  /-- bank input queues b0 to b3, as (operation, key) (R103) -/
  banks : Tab (List (Nat × Nat))
  conflict : List (Nat × Nat)
  /-- running routine of each bank (R104) -/
  runs : Tab Run
  /-- forwarding entries, oldest first: line and pan (R108) -/
  fwd : List (Nat × Nat)
  pcarve : W64
  /-- way being drained, and the ways carved out (R111) -/
  draining : Option Nat
  shadow : BitVec 16
  records : List GRec
  mail : List Mail
  /-- lines watched by wait monitors, by slot (R382) -/
  watches : List (Nat × Nat)
  /-- flushes of lines homed here that another pan has invalidated: line and request, until the notice (R108, R117) -/
  flushes : List (Nat × (Nat × Nat))
  /-- what its carved ways hold (R400) -/
  images : List Image
  /-- its copy of entries 32 to 63 of the routine map (R133) -/
  rmap : Tab W64
  deriving DecidableEq, Repr

/-- Who waits for a translation (R76 to R78): the scalar thread or the lane stream of a warp, the tile fetch of a matrix operation, a copy
job, the ask of a window, a collective, the hart of a slot (64 + q for the completion signals of queue q), or the rake that writes out a nest. -/
inductive Asker where
  | thread (warp : Nat)
  | lanes (warp : Nat)
  | mop (op : Nat)
  | job (crew win : Nat)
  | ask (crew win : Nat)
  | coll (crew : Nat)
  | hart (slot : Nat)
  | rake (nest : Nat)
  deriving DecidableEq, Repr

/-- A walk in progress or waiting (R77, R78), with the requesters that joined it (own). -/
structure Walk where
  part : Nat
  page : Nat
  base : W64
  /-- set when a shootdown or a write of PTBASE passed it (R72, R85) -/
  stale : Bool
  who : List Asker
  deriving DecidableEq, Repr

/-- The answer of a walk that an agent other than a warp's word has still to use (own). -/
structure Answer where
  who : Asker
  part : Nat
  page : Nat
  res : XRes
  deriving DecidableEq, Repr

/-- A die (R76 to R78). -/
structure Die where
  tlb : List TlbEntry
  ptrs : List PtrEntry
  walkers : Tab Walk
  misses : List Walk
  answers : List Answer
  deriving DecidableEq, Repr

/-- A copy job (R188): crew and window, the elements copied so far, and the index word of the row that is being copied: row, value, whether
it lies in a poisoned sector (R177, R190). -/
structure Job where
  crew : Nat
  win : Nat
  running : Bool
  fseqs : List Nat
  pos : Nat
  row : Option (Nat × W32 × Bool)
  deriving DecidableEq, Repr

/-- A copy engine (R76, R188). -/
structure Engine where
  jobs : List Job
  tlb : List TlbEntry
  /-- the cluster it last took a job from -/
  last : Nat
  deriving DecidableEq, Repr

/-- A row record (R336). -/
structure Row where
  i : List Int
  lo : Int
  hi : Int
  issued : Nat
  pre : Nat
  bitmap : BitVec 128
  deriving DecidableEq, Repr

/-- A point that holds an outstanding-point entry (R341, R349). -/
structure OutPt where
  pt : Pt
  /-- crew that serves it, none when finished or saved -/
  crew : Option Nat
  finished : Bool
  children : Nat
  launched : Bool
  deriving DecidableEq, Repr

/-- A saved crew of a nest (R395, R401): its context (R399) in the model's own terms. -/
structure Context where
  crew : Crew
  warps : List Warp
  /-- tiles kept, by declared tile x 64 + row (R397) -/
  tiles : Tab LaneReg
  scratch : List (Nat × Byte)
  spoison : List Nat
  /-- operations of the matrix queue that had not begun, in queue order (R395) -/
  ops : List (Nat × MOp)
  /-- words that wait for a replay (R392) -/
  replays : List (Nat × MemOp)
  /-- keys that the warps' operations with far acknowledgements outstanding have meanwhile (own) -/
  ghosts : List Nat
  full : Bool
  deriving DecidableEq, Repr

/-- A nest held by a rake (R325 to R355). -/
structure Nest where
  part : Nat
  va : Nat
  /-- physical address of the record (R330) -/
  pa : Nat
  /-- copy of the record's 256 bytes (R333) -/
  record : BitVec 2048
  descs : List Desc
  /-- HC0 of each dimension, as now (R328, R353) -/
  hc : List Int
  rows : List Row
  newest : Option (List Int)
  released : Nat
  depth : Nat
  /-- parent nest key and the parent point's linear index -/
  parent : Option (Nat × Nat)
  /-- queue and packet data of a host launch: queue, SADDR, SVALUE, IRQ (R372) -/
  launch : Option (Nat × Nat × W64 × Bool)
  points : List OutPt
  /-- points to be handed out again, oldest first (R396) -/
  rerun : List Pt
  /-- saved gangs: each a list of contexts (R401) -/
  saved : List (List Context)
  nextCrew : Nat
  nextGang : Nat
  /-- gangs with crews still resident or scratch retained: gang, crews that have exited with their scratch (R350, R406) -/
  retained : List (Nat × Crew)
  ending : Bool
  stopped : Bool
  born : Nat
  /-- its completion record's store to a peer page that is not acknowledged (own) -/
  put : Option Nat
  deriving DecidableEq, Repr

/-- A multicast group (R151); member index to crew key, identity, completion-gate enable and gate. -/
structure Group where
  count : Nat
  timer : Nat
  linger : Nat
  cpa : Nat
  members : Tab (Nat × CrewId × Bool × Nat)
  seq : Nat
  /-- asks on their way to the record pan, as (MIDX, SRCPA, size) -/
  asks : List (Nat × Nat × Nat)
  /-- resends under way, as (MIDX, SRCPA, size) (R167) -/
  resends : List (Nat × Nat × Nat)
  deriving DecidableEq, Repr

/-- A partition's registers and tables (R72, R83, R133, R425, R426, R430). -/
structure Part where
  pctl : W64
  pwin : Tab W64
  ptbase : W64
  xinva : W64
  xinvc : W64
  tans : W64
  tval : W64
  fres : W64
  tring : W64
  fring : W64
  trw : W64
  frw : W64
  trr : W64
  frr : W64
  /-- routine map entries 32 to 63 as the last install that has ended its phase 2 left them (R133); 0 to 31 are fixed -/
  rmap : Tab W64
  /-- installed code by RAM slot (R132) -/
  code : Tab (List W32)
  groups : Tab Group
  tseq : Nat
  fseq : Nat
  /-- trap records taken and not yet written (R430) -/
  heldT : List TrapRec
  /-- fault records not yet written -/
  heldF : List FaultRec
  /-- fault records without a resolution (R391) -/
  open_ : List FaultRec
  /-- range of the shootdown in progress in 64 KiB pages (R83, R84) -/
  shoot : Option (Nat × Nat)
  /-- clock of the accepted write that set EN (R206) -/
  started : Nat
  zeroing : Bool
  /-- nests swapped out at partition level (R403) -/
  halted : Bool
  /-- an event has happened at which the scheduler decides (R380) -/
  due : Bool
  /-- what its spill area holds of contexts (R400) -/
  spill : List Image
  deriving DecidableEq, Repr

/-- A nest saved by the Pier (R402): what its save area holds, and its contexts. -/
structure SavedNest where
  nest : Nest
  save : Nat
  deriving DecidableEq, Repr

/-- A queue (R374, R378). -/
structure Queue where
  ring : Nat
  hmir : Nat
  head : BitVec 32
  tail : BitVec 32
  rlog : Nat
  prio : Nat
  part : Nat
  state : Nat
  err : Nat
  pstep : Nat
  pkt : BitVec 512
  open_ : Nat
  stale : Nat
  psince : Nat
  pending : Bool
  /-- PENDING launches are counted by OPEN; fault record the packet waits for (R372) -/
  fseq : Option Nat
  /-- a nest of the partition has completed since the last try of a launch (R372) -/
  retry : Bool
  /-- TAIL in the control block: the copy of the last save (R378) -/
  tailCopy : BitVec 32
  /-- the hart has found the packet of PSTEP blocked since the queue was mapped (R379) -/
  blocked : Bool
  /-- HEAD has not reached the mirror yet; the packet taken is in `pkt` (R373) -/
  mirror : Bool
  /-- final status of a launch that is still to be stored at VALUE (R372) -/
  final : Option Nat
  /-- the hart's store to a peer page that is not acknowledged (own) -/
  store : Option Nat
  deriving DecidableEq, Repr

/-- A queue slot (R379): its queue, the clock it was mapped and since when it is idle, and its wait monitor (R382). -/
structure Slot where
  queue : Option Nat
  mapped : Nat
  idle : Nat
  wmaddr : Nat
  wmval : W64
  wmcond : Nat
  armed : Bool
  /-- the watched word of device memory, and whether a write to its line has met the condition (own) -/
  wmpa : Option Nat
  met : Bool
  fired : Bool
  /-- the decision at 200 µs mapped has been made (R380) -/
  seen200 : Bool
  /-- the hart is in the WFI behind its monitor (R382) -/
  wfi : Bool
  deriving DecidableEq, Repr

/-- A completion signal to be stored (R372): queue, SADDR, SVALUE, IRQ. -/
structure Signal where
  queue : Nat
  saddr : Nat
  svalue : W64
  irq : Bool
  /-- its store to a peer page that is not acknowledged (own) -/
  store : Option Nat
  deriving DecidableEq, Repr

/-- A causeway port (R408, R409, R442). -/
structure Port where
  cwctl : W64
  /-- 0 DOWN, 1 TRAINING, 2 UP -/
  state : Nat
  preset : Nat
  refused : Nat
  lost : Nat
  sendSeq : Nat
  recvSeq : Nat
  /-- retry buffer, oldest first -/
  retry : List (Nat × PortMsg)
  /-- resends in a row of one flit, and its number (R411) -/
  resends : Nat
  resendOf : Nat
  /-- requests delivered to the transaction layer -/
  inbox : List PortMsg
  /-- what it last returned to the far end: the sequence number acknowledged, or refused (R409) -/
  back : Option (Nat × Bool)
  /-- clock at which its training began (R442) -/
  since : Nat
  deriving DecidableEq, Repr

/-- The record of a collective in progress (R421). -/
structure Coll where
  /-- the crew, where it was last resident, and its identity -/
  crew : Nat
  id : CrewId
  part : Nat
  /-- WCREW of the communication warp and the address of its coll.start -/
  cwarp : Nat
  waddr : Nat
  gate : Nat
  desc : BitVec 512
  /-- PEER and STAGEPA of each rank -/
  ranks : List (Nat × Nat)
  step : Nat
  /-- 0 waiting to send a chunk, 1 chunk sent, 2 flag written, 3 DST complete -/
  phase : Nat
  attempt : Nat
  stopped : Bool
  /-- ranks whose READY for the attempt has come -/
  ready : List Nat
  flags : W64
  /-- writes of the attempt not acknowledged: tag, the peer's line and port (R419); their lines are the engine's until then (R189) -/
  pending : List (Nat × Nat × Nat)
  fseqs : List Nat
  /-- windows held, those it will hold when they become present (R182), and the operation that holds a source tile (R418) -/
  held : List Nat
  wants : List Nat
  tileOp : Option Nat
  deriving DecidableEq, Repr

/-- Boot, power and device registers (R428 to R442), untouched by programs. -/
structure Boot where
  bootstat : W64
  fsc : Nat
  meas : Tab (BitVec 512)
  featacc : BitVec 128
  featctl : W64
  throttle : Nat
  pwrctl : W64
  pwrstat : W64
  h15ir : Tab W64
  h15dr : Tab W64
  h15go : Tab W64
  /-- step of training each stack has passed, 100 more once it has failed the next (R441) -/
  trained : Tab Nat
  /-- clock at which each rail was enabled, then at which it became good (R440) -/
  railAt : Tab Nat
  /-- clock at which a rail was last switched off (R440) -/
  offAt : Option Nat
  /-- clock at which each stack's wrapper operation started (R441) -/
  h15At : Tab Nat
  /-- recovery window bytes (R428) -/
  recovery : Mem
  /-- the bundle in flash, its bytes as a little-endian number (R437) -/
  bundle : Nat
  /-- step of the measured start that runs (R434), 0 when off or minimal, 1 after a failed start, 12 when done; clock of step 10 -/
  start : Nat
  startAt : Nat
  deriving DecidableEq, Repr

/-- Who issues a word (own). -/
inductive Actor where
  | none
  | scalar (warp : Nat)
  | lane (warp : Nat)
  deriving DecidableEq, Repr

/-- Everything but the boot registers and the schedule. -/
structure Dev where
  clock : Nat
  /-- 50 µs ticks that the scheduler has had (R380) -/
  tick : Nat
  actor : Actor
  /-- number of the next free values (own; log 26) -/
  free : Nat
  nextId : Nat
  /-- number of the next departure or performance of a request (own; Sub.order) -/
  replies : Nat
  mem : Mem
  /-- poisoned 16-byte sectors by address div 16 (R68) -/
  poison : List Nat
  /-- sectors whose HBM copy holds an uncorrectable error (R68) -/
  hbmErr : List Nat
  warps : Tab Warp
  crews : Tab Crew
  clusters : Tab Cluster
  ops : Tab MemOp
  mops : Tab MOp
  pans : Tab Pan
  dies : Tab Die
  engines : Tab Engine
  nests : Tab Nest
  savedNests : List SavedNest
  parts : Tab Part
  queues : Tab Queue
  slots : Tab Slot
  signals : List Signal
  ports : Tab Port
  colls : List Coll
  arrs : List Arr
  /-- writes of collectives that have ended, not acknowledged: partition, tag, line, port (R414) -/
  lateAcks : List (Nat × Nat × Nat × Nat)
  /-- messages to peers not yet in a retry buffer -/
  outbox : List (Nat × PortMsg)
  /-- CWROUTE (R411), CWSELF and CWRQ (R412) -/
  cwroute : Tab W64
  cwself : W64
  cwrq : W64
  /-- MSI-X vectors raised so far, by vector (R429) -/
  msix : Tab Nat
  /-- what the host's last read through the aperture returned; none for Unsupported Request (R428) -/
  hostData : Option Nat
  /-- device registers to which the spec gives no effect (R428) -/
  regs : Tab W64
  deriving DecidableEq, Repr

/-- Which agent moves next (own): the front end of a cluster, a lane pipe, or the step that an event names. -/
inductive Who where
  | front (cluster : Nat)
  | pipe (cluster pipe : Nat)
  | event (i : Instr)
  deriving DecidableEq, Repr

/-- A turn (own): dt core clocks pass, then each of the clusters listed sends a request, that at the given place of its queue, onto the
request viaduct (R459), then the agent moves. -/
structure Turn where
  dt : Nat
  sends : List (Nat × Nat)
  who : Who
  deriving DecidableEq, Repr

/-- The machine. -/
structure State where
  turns : List Turn
  boot : Boot
  dev : Dev
  deriving DecidableEq, Repr

/-- Boot registers at power-on (R434, R435; log 19 for those the spec gives no value). -/
def Boot.reset : Boot where
  bootstat := 0
  fsc := 0
  meas := []
  featacc := 0
  featctl := 0
  throttle := 0
  pwrctl := 0
  pwrstat := 0
  h15ir := []
  h15dr := []
  h15go := []
  trained := []
  railAt := []
  offAt := none
  h15At := []
  recovery := []
  bundle := 0
  start := 0
  startAt := 0

/-- The rest of the device at power-on. -/
def Dev.reset : Dev where
  clock := 0
  tick := 0
  actor := .none
  free := 0
  nextId := 1
  replies := 0
  mem := []
  poison := []
  hbmErr := []
  warps := []
  crews := []
  clusters := []
  ops := []
  mops := []
  pans := []
  dies := []
  engines := []
  nests := []
  savedNests := []
  parts := []
  queues := []
  slots := []
  signals := []
  ports := []
  colls := []
  arrs := []
  lateAcks := []
  outbox := []
  cwroute := []
  cwself := 0x3FF
  cwrq := 0
  msix := []
  hostData := none
  regs := []

/-- The machine right after reset. -/
def State.reset : State where
  turns := []
  boot := Boot.reset
  dev := Dev.reset

end Sys2Proof.Machine
end

