-- ==== Sys2Proof/Machine/Space.lean ====
section
/-!
DEFINITION. Memory bytes and the physical space (R12, R65 to R69), and the tables of units with the fields that a nest record holds.
-/
namespace Sys2Proof.Machine

/-! ### Memory -/

/-- What an unlisted address reads as (log 1). -/
def memDefault : Byte := 0

def memRead : Mem → Nat → Byte
  | [], _ => memDefault
  | (k, v) :: r, a => if k = a then v else memRead r a

/-- Writes one byte and keeps the canonical form. -/
def memWrite : Mem → Nat → Byte → Mem
  | [], a, b => if b = memDefault then [] else [(a, b)]
  | (k, v) :: r, a, b =>
    if k = a then (if b = memDefault then r else (a, b) :: r)
    else if a < k then (if b = memDefault then (k, v) :: r else (a, b) :: (k, v) :: r)
    else (k, v) :: memWrite r a b

/-- Every address of the list is above a. -/
def memAbove (a : Nat) (m : Mem) : Bool := m.all (fun c => decide (a < c.1))

/-- The canonical form: addresses strictly rising, no entry equal to the default. -/
def Memory.wf : Mem → Bool
  | [] => true
  | (k, v) :: r => v != memDefault && memAbove k r && Memory.wf r

/-- The n-byte little-endian number at a (R12). -/
def memReadN (m : Mem) (a : Nat) : Nat → Nat
  | 0 => 0
  | n + 1 => (memRead m a).toNat + 256 * memReadN m (a + 1) n

/-- Stores the low n bytes of v at a, little-endian. -/
def memWriteN (m : Mem) (a : Nat) : Nat → Nat → Mem
  | 0, _ => m
  | n + 1, v => memWriteN (memWrite m a (BitVec.ofNat 8 v)) (a + 1) n (v / 256)

/-! ### The physical space -/

/-- Peer memory (R65). -/
def isPeer (pa : Nat) : Bool := 0x4000000000000 ≤ pa && pa < 0x8000000000000
/-- Host memory (R65). -/
def isHost (pa : Nat) : Bool := 0x8000000000000 ≤ pa && pa < 0x10000000000000
/-- The device's own populated HBM (R65). -/
def isHbm (pa : Nat) : Bool := pa < 0x10000000000 && pa % 0x4000000000 < 0x3000000000
/-- Device register space (R65). -/
def isDevReg (pa : Nat) : Bool := 0x10000000000 ≤ pa && pa < 0x20000000000
/-- A hole or device register space (R66). -/
def isOutside (pa : Nat) : Bool := !(isHbm pa || isPeer pa || isHost pa)

def Port.empty : Port := ⟨0, 0, 0, 0, 0, 0, 0, [], 0, 0, [], none, 0⟩
def Dev.port (d : Dev) (p : Nat) : Port := d.ports.getD p Port.empty

/-- The port of a peer address, when its route is valid and the port is UP (R411, R414). -/
def portFor (d : Dev) (pa : Nat) : Option Nat :=
  let peer := pa / 2 ^ 40 % 1024
  let e := d.cwroute.getD peer 0
  if peer ≠ 1023 ∧ bit e 3 ∧ (d.port (bits e 2 0)).state = 2 then some (bits e 2 0) else none

/-- A sector of a peer answers a read of one of the device's agents: there is a link, and the peer neither refuses the read nor loses it
(R414; log 18). -/
def peerAnswers (d : Dev) (s : Nat) : Bool := (portFor d (s * 16)).isSome && !Config.peerFails d.free s

/-- A byte as the device reads it; a peer's memory is outside this machine (log 18), and reads 0 when the read fails (R414). -/
def devRead (d : Dev) (pa : Nat) : Byte :=
  if isPeer pa then (if peerAnswers d (pa / 16) then Config.peerByte d.free pa else 0) else memRead d.mem pa

def devReadN (d : Dev) (pa : Nat) : Nat → Nat
  | 0 => 0
  | n + 1 => (devRead d pa).toNat + 256 * devReadN d (pa + 1) n

/-- Sectors of 16 bytes that lie in [pa, pa + n). -/
def sectorsOf (pa n : Nat) : List Nat :=
  if n = 0 then [] else (List.range ((pa + n - 1) / 16 - pa / 16 + 1)).map (· + pa / 16)

/-- A sector reads as poisoned: marked in its pan, uncorrectable in HBM when it is fetched (R68), or a peer's whose read fails
(R414). -/
def badSector (d : Dev) (s : Nat) : Bool :=
  d.poison.contains s || d.hbmErr.contains s || (isPeer (s * 16) && !peerAnswers d s)

/-- The first poisoned sector of a range, as a byte address (R478). -/
def firstPoison (d : Dev) (pa n : Nat) : Option Nat :=
  ((sectorsOf pa n).find? (badSector d)).map (· * 16)

/-- Bit i is set when sector i of the line is poisoned (R68). -/
def linePoison (d : Dev) (line : Nat) : BitVec 4 :=
  BitVec.ofNat 4 ((List.range 4).foldl (fun a i => if badSector d (line * 4 + i) then a + 2 ^ i else a) 0)

/-- Clears the poison of the sectors that [pa, pa + n) covers whole, in pan and HBM (R68). -/
def cleanPoison (d : Dev) (pa n : Nat) : Dev :=
  let whole := fun s => decide (pa ≤ s * 16 ∧ s * 16 + 16 ≤ pa + n)
  { d with poison := d.poison.filter (fun s => !whole s), hbmErr := d.hbmErr.filter (fun s => !whole s) }

/-- A write to [pa, pa + n) drops the linger copies that hold a line of it (R162). -/
def dropLingers (d : Dev) (pa n : Nat) : Dev :=
  { d with pans := d.pans.map (fun e => (e.1, { e.2 with records := e.2.records.filter (fun r =>
      !(r.state == .lingering && r.srcpa / 64 * 64 < pa + n && pa / 64 * 64 < r.srcpa + r.size)) })) }

/-- The condition of a WAIT (R371). -/
def waitCond (c mem v : Nat) : Bool :=
  match c with
  | 0 => v ≤ mem
  | 1 => mem == v
  | _ => mem != v

/-- The wait monitors that watch a line of [pa, pa + n) compare their words after a write (R382). -/
def compareWatches (d : Dev) (pa n : Nat) : Dev :=
  if d.slots.all (fun e => e.2.wmpa.isNone) then d
  else { d with slots := d.slots.map (fun e => match e.2.wmpa with
    | some a =>
      if a / 64 * 64 < pa + n ∧ pa / 64 * 64 ≤ a ∧ waitCond e.2.wmcond (devReadN d a 8) e.2.wmval.toNat then (e.1, { e.2 with met := true })
      else e
    | none => e) }

/-- What follows every write of bytes of [pa, pa + n): linger copies go, and wait monitors compare. -/
def written (d : Dev) (pa n : Nat) : Dev := compareWatches (dropLingers d pa n) pa n

/-- A device-scope store of n bytes performed at once. -/
def devWriteN (d : Dev) (pa n v : Nat) : Dev :=
  written (cleanPoison { d with mem := memWriteN d.mem pa n v } pa n) pa n

/-! ### Tables of units -/

def Pipe.empty : Pipe := ⟨[], 0, 0, [], none, 0, none, 0⟩
def Cluster.empty : Cluster := ⟨[], [], [], 3, [], [], [], [], [], [], [], [], [], [], [], 0, 0, 0⟩
def Reads.empty : Reads := ⟨none, []⟩
def Pan.empty : Pan := ⟨[], [], [], [], [], 0, none, 0, [], [], [], [], [], []⟩
def Die.empty : Die := ⟨[], [], [], [], []⟩
def Engine.empty : Engine := ⟨[], [], 0⟩
/-- TSAVE is 20 µs by default (R393). -/
def Part.empty : Part :=
  ⟨0x14000000000000, [], 0, 0, 0, 0, 0, 0, 0, 0, 0, 0, 0, 0, [], [], [], 0, 0, [], [], [], none, 0, false, false, false, []⟩
def Queue.empty : Queue := ⟨0, 0, 0, 0, 0, 0, 0, 0, 0, 0, 0, 0, 0, 0, false, none, false, 0, false, false, none, none⟩
def Slot.empty : Slot := ⟨none, 0, 0, 0, 0, 0, false, none, false, false, false, false⟩

def Dev.cluster (d : Dev) (c : Nat) : Cluster := d.clusters.getD c Cluster.empty
def Dev.setCluster (d : Dev) (c : Nat) (x : Cluster) : Dev := { d with clusters := d.clusters.set c x }
def Dev.pan (d : Dev) (p : Nat) : Pan := d.pans.getD p Pan.empty
def Dev.setPan (d : Dev) (p : Nat) (x : Pan) : Dev := { d with pans := d.pans.set p x }
def Dev.die (d : Dev) (i : Nat) : Die := d.dies.getD i Die.empty
def Dev.setDie (d : Dev) (i : Nat) (x : Die) : Dev := { d with dies := d.dies.set i x }
def Dev.engine (d : Dev) (e : Nat) : Engine := d.engines.getD e Engine.empty
def Dev.setEngine (d : Dev) (e : Nat) (x : Engine) : Dev := { d with engines := d.engines.set e x }
def Dev.part (d : Dev) (p : Nat) : Part := d.parts.getD p Part.empty
def Dev.setPart (d : Dev) (p : Nat) (x : Part) : Dev := { d with parts := d.parts.set p x }
def Dev.queue (d : Dev) (q : Nat) : Queue := d.queues.getD q Queue.empty
def Dev.setQueue (d : Dev) (q : Nat) (x : Queue) : Dev := { d with queues := d.queues.set q x }
def Dev.slot (d : Dev) (i : Nat) : Slot := d.slots.getD i Slot.empty
def Dev.setSlot (d : Dev) (i : Nat) (x : Slot) : Dev := { d with slots := d.slots.set i x }
def Dev.setPort (d : Dev) (p : Nat) (x : Port) : Dev := { d with ports := d.ports.set p x }
def Dev.setWarp (d : Dev) (k : Nat) (w : Warp) : Dev := { d with warps := d.warps.set k w }
def Dev.modWarp (d : Dev) (k : Nat) (f : Warp → Warp) : Dev := { d with warps := d.warps.modify k f }
def Dev.setCrew (d : Dev) (k : Nat) (c : Crew) : Dev := { d with crews := d.crews.set k c }
def Dev.modCrew (d : Dev) (k : Nat) (f : Crew → Crew) : Dev := { d with crews := d.crews.modify k f }
def Dev.setNest (d : Dev) (k : Nat) (n : Nest) : Dev := { d with nests := d.nests.set k n }
def Dev.setOp (d : Dev) (i : Nat) (o : MemOp) : Dev := { d with ops := d.ops.set i o }
def Dev.modOp (d : Dev) (i : Nat) (f : MemOp → MemOp) : Dev := { d with ops := d.ops.modify i f }
def Dev.pipe (d : Dev) (c p : Nat) : Pipe := (d.cluster c).pipes.getD p Pipe.empty
def Dev.setPipe (d : Dev) (c p : Nat) (x : Pipe) : Dev :=
  d.setCluster c { d.cluster c with pipes := (d.cluster c).pipes.set p x }

/-- Raises an MSI-X vector (R429). -/
def Dev.raise (d : Dev) (v : Nat) : Dev := { d with msix := d.msix.set v (d.msix.getD v 0 + 1) }

/-- The key of a warp's crew. -/
def Warp.crewKey (w : Warp) : Nat := w.cluster * 32 + w.cslot

/-- The key of the nest a crew serves. -/
def CrewId.nest (i : CrewId) : Nat := i.die * 64 + i.slot

def Dev.crewOf (d : Dev) (w : Warp) : Option Crew := d.crews.get? w.crewKey
def Dev.nestOf (d : Dev) (w : Warp) : Option Nest := (d.crewOf w).bind (fun c => d.nests.get? c.id.nest)
/-- The partition of a warp. -/
def Dev.partOf (d : Dev) (w : Warp) : Nat := ((d.crewOf w).map (·.id.part)).getD 0

/-- A little-endian field of a nest record (R325). -/
def recField (r : BitVec 2048) (byte n : Nat) : Nat := (r.toNat >>> (8 * byte)) % 256 ^ n

def Nest.scb (n : Nest) : Nat := recField n.record 8 8
def Nest.lcb (n : Nest) : Nat := recField n.record 16 8
def Nest.sentry (n : Nest) : Nat := recField n.record 0 8
def Nest.param (n : Nest) : Nat := recField n.record 24 8
def Nest.sclen (n : Nest) : Nat := recField n.record 48 4
def Nest.ctl (n : Nest) : Nat := recField n.record 52 4
def Nest.dims (n : Nest) : Nat := n.ctl % 4 + 1
def Nest.ndep (n : Nest) : Nat := (n.ctl / 16) % 16
def Nest.idem (n : Nest) : Bool := (n.ctl / 256) % 2 = 1
def Nest.gangSize (n : Nest) : Nat := (n.ctl / 512) % 16 + 1
def Nest.prio (n : Nest) : Nat := (n.ctl / 8192) % 8
def Nest.shape (n : Nest) : Nat := recField n.record 56 4
def Nest.warpsPer (n : Nest) : Nat := (n.shape / 256) % 16 + 1
def Nest.gran (n : Nest) : Nat := (n.shape / 4096) % 64
def Nest.wcnt (n : Nest) : Nat := (n.shape / 2 ^ 18) % 32
def Nest.ssize (n : Nest) : Nat := n.shape / 2 ^ 23 * 4096
def Nest.tilesDecl (n : Nest) : Nat := recField n.record 60 2
def Nest.crewMax (n : Nest) : Nat := recField n.record 62 2
def Nest.gdecl (n : Nest) (g : Nat) : Nat := recField n.record (64 + g) 1

/-! ### Memory windows (R69, R426) -/

def pwinV (w : W64) : Bool := bit w 0
def pwinBase (w : W64) : Nat := bits w 51 30 * 2 ^ 30
def pwinSize (w : W64) : Nat := bits w 29 13 * 2 ^ 30

/-- [pa, pa + n) lies in one of the partition's windows (R69, R426). -/
def inWindows (d : Dev) (p pa n : Nat) : Bool :=
  (d.part p).pwin.any (fun e => pwinV e.2 && pwinBase e.2 ≤ pa && pa + n ≤ pwinBase e.2 + pwinSize e.2)

/-- Lines that [pa, pa + n) meets. -/
def linesOf (pa n : Nat) : List Nat := if n = 0 then [] else (List.range ((pa + n - 1) / 64 - pa / 64 + 1)).map (· + pa / 64)

end Sys2Proof.Machine
end

