-- ==== Sys2Proof/Machine/Tags.lean ====
section
/-!
DEFINITION. Choosing the pan of a line (R97 to R101) and the tags of the pans: allocation, what keeps a request from being performed, fills
(R68, R102 to R104), and the accesses that the device's own agents make at a pan.
-/
namespace Sys2Proof.Machine

/-! ### Choosing the pan -/

def Part.firstSpan (p : Part) : Nat := bits p.pctl 5 2
def Part.spanLog (p : Part) : Nat := bits p.pctl 8 6
def Part.enabled (p : Part) : Bool := bit p.pctl 0
/-- First pan and number of pans of a partition (R97). -/
def Part.basePan (p : Part) : Nat := 16 * p.firstSpan
def Part.pans (p : Part) : Nat := 16 * 2 ^ p.spanLog

def log2n : Nat → Nat
  | 16 => 4
  | 32 => 5
  | 64 => 6
  | 128 => 7
  | _ => 8

/-- The fold of R98 over at most `fuel` fields from bit i. -/
def foldPan (pa f : Nat) : Nat → Nat → Nat
  | 0, _ => 0
  | fuel + 1, i =>
    if 51 < i then 0
    else
      let hi := Nat.min (i + f - 1) 51
      ((pa / 2 ^ i) % 2 ^ (hi + 1 - i)) ^^^ foldPan pa f fuel (i + f)

/-- The home pan (R98). -/
def homePan (pa base n : Nat) : Nat := base + foldPan pa (log2n n) 12 6

/-- The bank of a line within its pan (R99). -/
def bankOf (pa : Nat) : Nat := ((pa / 64) % 4) ^^^ ((pa / 2 ^ 14) % 4)

/-- The home or relay pan of a line for a partition (R98, R101). -/
def panOf (d : Dev) (p line : Nat) : Nat := homePan (line * 64) (d.part p).basePan (d.part p).pans

/-- The line's pan: its home, or the pan it has migrated to (R107). -/
def currentPan (d : Dev) (p line : Nat) : Nat :=
  let home := panOf d p line
  (((d.pan home).fwd.find? (fun f => f.1 == line)).map (·.2)).getD home

/-- The enabled partition whose window holds a line. -/
def ownerOf (d : Dev) (l : Nat) : Nat := ((d.parts.find? (fun e => e.2.enabled && inWindows d e.1 (l * 64) 64)).map (·.1)).getD 0

/-! ### Requests -/

/-- Distinct values in order. -/
def distinct (l : List Nat) : List Nat := l.foldl (fun a x => if a.contains x then a else a ++ [x]) []

/-- The number of no pan: the value of an L1 copy, or a request that no pan has performed. -/
def noPan : Nat := 1024

def Sub.new (line : Nat) (act : Act) : Sub := ⟨line, act, .sent, 0, 0, 0, false, 0, 0, 0, 0, 0, [], false, 0, noPan⟩

/-- A write that waits for an unpin (R284, R285); a cflush does not (R119). -/
def Act.waitsUnpin : Act → Bool
  | .store _ => true
  | .routine .. => true
  | .zero => true
  | _ => false

/-- A write still on its way: the line's later requests and pins meet it (R307). -/
def Act.isWrite : Act → Bool
  | .load => false
  | .clean => false
  | .drop => false
  | _ => true

/-- The bytes of a little-endian value as a store's byte list (R12). -/
def storeBytes (off : Nat) (v : Nat) : Nat → List (Nat × Byte × Byte)
  | 0 => []
  | n + 1 => (off, BitVec.ofNat 8 v, 255) :: storeBytes (off + 1) (v / 256) n

/-- Eviction rank: hint 1 first, hint 2 last, then least recently used (R48, R102). -/
def evictRank (hint used : Nat) : Nat × Nat := (if hint = 1 then 0 else if hint = 2 then 2 else 1, used)

def rankLt (a b : Nat × Nat) : Bool := a.1 < b.1 || (a.1 == b.1 && a.2 < b.2)

/-- The key with the least rank; of equal ones the first in the table, which is the lowest line (log 97). -/
def leastRank : List (Nat × (Nat × Nat)) → Option Nat
  | [] => none
  | (k, r) :: rest =>
    match leastRank rest with
    | none => some k
    | some k' => if rest.any (fun e => e.1 == k' && rankLt e.2 r) then some k' else some k

/-! ### Tags -/

def Pan.line (x : Pan) (l : Nat) : Option PanLine := x.lines.get? l

/-- A line without a reader or writer. -/
def PanLine.fresh (way hint used : Nat) : PanLine := ⟨way, 0, 0, false, 0, false, [], none, 0, 0, hint, used, [], false⟩

def Dev.setLine (d : Dev) (p l : Nat) (e : PanLine) : Dev := d.setPan p { d.pan p with lines := (d.pan p).lines.set l e }
def Dev.modLine (d : Dev) (p l : Nat) (f : PanLine → PanLine) : Dev :=
  d.setPan p { d.pan p with lines := (d.pan p).lines.modify l f }

/-- A request of an operation. -/
def subOf (d : Dev) (q : Nat × Nat) : Option (MemOp × Sub) :=
  (d.ops.get? q.1).bind (fun o => (o.subs.get? q.2).map (fun u => (o, u)))

/-- A request in a queue names the line. -/
def asks (d : Dev) (l : Nat) (q : Nat × Nat) : Bool := ((subOf d q).map (·.2.line)) == some l

/-- A request for the line waits in a bank's queue of the pan. -/
def queued (d : Dev) (p l : Nat) : Bool := ((d.pan p).banks.getD (bankOf (l * 64)) []).any (asks d l)

/-- A routine holds the line's lock (R104). -/
def locked (x : Pan) (l : Nat) : Bool := x.runs.any (fun r => r.2.line == l)

/-- A group-load record or linger copy refers to the line (R109): it neither moves nor, whatever the record's state, leaves as a victim
(R162 holds linger copies in place; log 97). -/
def groupRef (d : Dev) (l : Nat) : Bool :=
  d.pans.any (fun e => e.2.records.any (fun r =>
    r.srcpa / 64 ≤ l && l < (r.srcpa + r.size) / 64))

/-- The set of a line in its bank (log 23). -/
def setOf (l : Nat) : Nat := l / 4 % 512

/-- The read of a copy engine owns the line in this clock (R189). -/
def PanLine.owned (e : PanLine) (now : Nat) : Bool := e.owner == some now

/-- Nothing keeps the line in place. -/
def movable (d : Dev) (p l : Nat) (e : PanLine) : Bool :=
  !e.filling && !e.moving && e.pins.isEmpty && !e.owned d.clock && e.flushAt.isEmpty && !locked (d.pan p) l && !groupRef d l &&
    (d.pan p).draining != some e.way

/-- Replacement rank at a pan: hint 1 first, hint 6 last (R48, R102). -/
def panRank (e : PanLine) : Nat × Nat := evictRank (if e.hint = 6 then 2 else if e.hint = 1 then 1 else 0) e.used

/-- Makes room for a line: a free way of its set, or the place of a victim; none while every way is kept (R102, log 97). -/
def allocate (d : Dev) (p l hint : Nat) : Option Dev :=
  let x := d.pan p
  if (x.line l).isSome then some d
  else
    let mates := x.lines.filter (fun e => bankOf (e.1 * 64) == bankOf (l * 64) && setOf e.1 == setOf l)
    let usable := fun (w : Nat) => !x.shadow.getLsbD w && x.draining != some w
    match (List.range 16).find? (fun w => usable w && mates.all (fun e => e.2.way != w)) with
    | some w => some (d.setLine p l (PanLine.fresh w hint d.clock))
    | none =>
      match leastRank ((mates.filter (fun e => usable e.2.way && movable d p e.1 e.2)).map (fun e => (e.1, panRank e.2))) with
      | some v =>
        match x.line v with
        | some e => some (d.setPan p { x with lines := (x.lines.erase v).set l (PanLine.fresh e.way hint d.clock) })
        | none => none
      | none => none

/-- The bytes of a store cover a sector of the line whole; two nibbles make a byte (R68, R271). -/
def coversSector (bs : List (Nat × Byte × Byte)) (i : Nat) : Bool :=
  (List.range 16).all (fun j => bs.foldl (fun m b => if b.1 = 16 * i + j then m ||| b.2.2 else m) 0#8 == 255#8)

/-- Sectors of a line that a request must have from HBM before it is performed (R102). -/
def sectorsNeeded (act : Act) : BitVec 4 :=
  match act with
  | .load => 15
  | .routine .. => 15
  | .store bs =>
    BitVec.ofNat 4 ((List.range 4).foldl (fun a i =>
      if (bs.filter (fun b => b.1 / 16 == i)).isEmpty || coversSector bs i then a else a + 2 ^ i) 0)
  | _ => 0

/-- Sectors that a request makes dirty. -/
def sectorsWritten (act : Act) : BitVec 4 :=
  match act with
  | .store bs => BitVec.ofNat 4 ((List.range 4).foldl (fun a i => if bs.any (fun b => b.1 / 16 == i) then a + 2 ^ i else a) 0)
  | .zero => 15
  | _ => 0

def Act.isRoutine : Act → Bool
  | .routine .. => true
  | _ => false

/-- The sectors that a request still waits for; hint 4 allocates nowhere, and passes an absent line by (R48); a routine fetches them all the
same (R144). -/
def missing (x : Pan) (u : Sub) : BitVec 4 :=
  if u.hint == 4 && !u.act.isRoutine && (x.line u.line).isNone then 0
  else sectorsNeeded u.act &&& ~~~ (((x.line u.line).map (·.valid)).getD 0)

/-- The line keeps the request from being performed (R103, R119, R144), misses apart. -/
def lineBusy (x : Pan) (now : Nat) (u : Sub) : Bool :=
  (match x.line u.line with
    | some e => e.filling || e.moving || e.owned now || x.draining == some e.way || (u.act.waitsUnpin && !e.pins.isEmpty)
    | none => false) || locked x u.line

/-- The line, or for a routine its bank's lock, keeps the request from being performed (R103, R104). -/
def blocked (x : Pan) (now bank : Nat) (u : Sub) : Bool :=
  lineBusy x now u || (u.act.isRoutine && (x.runs.get? bank).isSome)

/-- Starts the fetch of the missing sectors (R102). -/
def startFill (d : Dev) (p : Nat) (u : Sub) : Option Dev :=
  (allocate d p u.line u.hint).map (fun d => d.modLine p u.line (fun e =>
    if e.filling then e else { e with filling := true, want := missing (d.pan p) u }))

/-! ### Fills (R67, R68) -/

/-- Where a physical address lies in its die's HBM (R67): stack, channel, pseudo-channel, address within the stack. -/
structure HbmPlace where
  stack : Nat
  channel : Nat
  pseudo : Nat
  saddr : Nat
  deriving DecidableEq, Repr

/-- hbm_place (R67). -/
def hbmPlace (pa : Nat) : HbmPlace :=
  let die := pa / 2 ^ 38 % 4
  let o := pa % 2 ^ 38
  let q := o / 256
  let c := q / 3
  ⟨3 * die + q % 3, (c % 32) ^^^ (c / 256 % 32), c / 32 % 2, c * 256 + o % 256⟩

/-- The sector's copy in HBM holds an uncorrectable error (R68): found before, or at this read of the stack (log 98). -/
def hbmError (d : Dev) (sector : Nat) : Bool :=
  d.hbmErr.contains sector || Config.hbmFails d.free (hbmPlace (sector * 16)).stack (hbmPlace (sector * 16)).saddr

/-- Sectors of a line are read from HBM: uncorrectable ones are marked poisoned (R68). -/
def readSectors (d : Dev) (l : Nat) (want : BitVec 4) : Dev :=
  let bad := ((List.range 4).filter (fun i => want.getLsbD i && hbmError d (l * 4 + i))).map (fun i => l * 4 + i)
  { d with
    poison := d.poison ++ bad.filter (fun s => !d.poison.contains s)
    hbmErr := d.hbmErr ++ bad.filter (fun s => !d.hbmErr.contains s) }

/-! ### Accesses of the device's own agents (R102 to R105) -/

/-- Bytes of [pa, pa + n) by line: line, offset in it, length. -/
def lineParts (pa n : Nat) : List (Nat × Nat × Nat) :=
  (linesOf pa n).map (fun l => (l, Nat.max pa (l * 64) - l * 64, Nat.min (pa + n) (l * 64 + 64) - Nat.max pa (l * 64)))

/-- A store to a part of a line, as a pan's tags see it. -/
def partSub (e : Nat × Nat × Nat) : Sub := Sub.new e.1 (.store (storeBytes e.2.1 0 e.2.2))

/-- A request to the line has arrived at a pan and waits there (R105). -/
def lineAsked (d : Dev) (l : Nat) : Bool :=
  d.pans.any (fun e => e.2.conflict.any (asks d l) || (e.2.banks.getD (bankOf (l * 64)) []).any (asks d l))

/-- The pan would let an access of an agent wait, misses apart: the line is busy, its notice is still to come, or an earlier request to it
waits (R103, R105, R108). -/
def agentWaits (d : Dev) (p : Nat) (u : Sub) : Bool :=
  let pan := currentPan d p u.line
  lineAsked d u.line || (isHbm (u.line * 64) &&
    (lineBusy (d.pan pan) d.clock u || (pan != panOf d p u.line && ((d.pan pan).line u.line).isNone)))

/-- A store of an agent of the partition to [pa, pa + n) cannot be performed yet: a line keeps it, or a sector that it covers in part is
absent (R102 to R105, R189, R284). -/
def storeWaits (d : Dev) (p pa n : Nat) : Bool :=
  (lineParts pa n).any (fun e => agentWaits d p (partSub e) ||
    (isHbm (e.1 * 64) && missing (d.pan (currentPan d p e.1)) (partSub e) != 0))

/-- A store that waits has the sectors fetched that it merges with (R102). -/
def storeFills (d : Dev) (p pa n : Nat) : Dev :=
  (lineParts pa n).foldl (fun d e =>
    let pan := currentPan d p e.1
    if !isHbm (e.1 * 64) || agentWaits d p (partSub e) || missing (d.pan pan) (partSub e) == 0 then d
    else (startFill d pan (partSub e)).getD d) d

/-- The tags of the line at its pan after a store of an agent: a line that is absent is allocated, and the sectors written are valid and
dirty (R102). -/
def storeTags (p : Nat) (d : Dev) (e : Nat × Nat × Nat) : Dev :=
  if !isHbm (e.1 * 64) then d
  else
    let pan := currentPan d p e.1
    let s := sectorsWritten (partSub e).act
    ((allocate d pan e.1 0).getD d).modLine pan e.1 (fun x => { x with valid := x.valid ||| s, dirty := x.dirty ||| s, used := d.clock })

/-- A store of n bytes by an agent of the partition, performed at the lines' pans. -/
def agentWriteN (d : Dev) (p pa n v : Nat) : Dev := devWriteN ((lineParts pa n).foldl (storeTags p) d) pa n v

/-- A line as an agent's read finds it at its pan: absent sectors are fetched, all at once (R68, R102; log 61). -/
def readTags (p : Nat) (d : Dev) (l : Nat) : Dev :=
  if !isHbm (l * 64) then d
  else
    let pan := currentPan d p l
    match (d.pan pan).line l with
    | some e =>
      if e.filling || e.moving then d
      else (readSectors d l (~~~ e.valid)).modLine pan l (fun x => { x with valid := 15, used := d.clock })
    | none =>
      let d := readSectors d l 15
      if pan != panOf d p l then d else ((allocate d pan l 0).getD d).modLine pan l (fun x => { x with valid := 15 })

/-- An agent of the partition reads [pa, pa + n) at the pans. -/
def agentReads (d : Dev) (p pa n : Nat) : Dev := (linesOf pa n).foldl (readTags p) d

end Sys2Proof.Machine
end

