-- ==== Sys2Proof/Machine/Ops.lean ====
section
/-!
DEFINITION. The shared operations over the state: registers, counters, issuing and waiting, fault records, taking a trap and
resuming from one, fences.
-/
namespace Sys2Proof.Machine

/-! ### Registers -/

/-- Reads s(i); s0 reads zero (R28). -/
def Warp.s (w : Warp) (i : Nat) : W64 := if i = 0 then 0 else w.sregs.getD i 0

/-- Writes s(i); a write to s0 is discarded (R28). -/
def Warp.setS (w : Warp) (i : Nat) (v : W64) : Warp := if i = 0 then w else { w with sregs := w.sregs.set i v }

/-- Reads q(i); q0 reads true (R28). -/
def Warp.qp (w : Warp) (i : Nat) : Bool := i == 0 || w.q.getLsbD i

/-- Writes q(i); a write to q0 is discarded (R28). -/
def Warp.setQ (w : Warp) (i : Nat) (v : Bool) : Warp :=
  if i = 0 then w else { w with q := if v then w.q ||| BitVec.ofNat 8 (2 ^ i) else w.q &&& ~~~ BitVec.ofNat 8 (2 ^ i) }

def Warp.v (w : Warp) (i : Nat) : LaneReg := w.vregs.getD i 0
def Warp.p (w : Warp) (i : Nat) : Mask := w.preds.getD i 0

/-- Lane k of a register. -/
def laneGet (r : LaneReg) (k : Nat) : W32 := r.extractLsb' (32 * k) 32

/-- Replaces lane k of a register. -/
def laneSet (r : LaneReg) (k : Nat) (v : W32) : LaneReg :=
  (r &&& ~~~ ((BitVec.ofNat 2048 0xFFFFFFFF) <<< (32 * k))) ||| ((v.setWidth 2048) <<< (32 * k))

/-- The in-flight counter of a path (R196). -/
def Warp.outs (w : Warp) : Path → List Out
  | .g => w.outG
  | .x => w.outX
  | .a => w.outA
  | .t => w.outT

def Warp.setOuts (w : Warp) (p : Path) (l : List Out) : Warp :=
  match p with
  | .g => { w with outG := l }
  | .x => { w with outX := l }
  | .a => { w with outA := l }
  | .t => { w with outT := l }

/-- Accesses retire in issue order (R196): the returned ones at the head leave. -/
def retire : List Out → List Out
  | [] => []
  | o :: r => if o.done then retire r else o :: r

/-- Marks an access returned and retires what can retire (R196). -/
def Warp.returned (w : Warp) (p : Path) (id : Nat) : Warp :=
  w.setOuts p (retire ((w.outs p).map (fun o => if o.id = id then { o with done := true } else o)))

/-- Raises a counter for a new access (R196). -/
def Warp.raiseOut (w : Warp) (p : Path) (id : Nat) : Warp := w.setOuts p (w.outs p ++ [⟨id, false⟩])

/-- A word that would raise a counter above 4,095 waits (R196). -/
def Warp.full (w : Warp) (p : Path) : Bool := 4095 ≤ (w.outs p).length

/-- Flags of WSTAT (R202). -/
def fNV : W64 := 1
def fDZ : W64 := 2
def fOF : W64 := 4
def fUF : W64 := 8
def fNX : W64 := 16
def fNARROW : W64 := 32
def fISAT : W64 := 64
def fLATCH : W64 := 128
def fKV : W64 := 256

/-! ### Issuing and waiting -/

/-- The meaning of a scalar word: f acts on the issuing warp (R27). -/
def scalarWord (s : State) (f : Dev → Nat → Warp → Dev) : Host.Outcome State Fault Refusal :=
  match s.dev.actor with
  | .scalar k =>
    match s.dev.warps.get? k with
    | some w => .next { s with dev := f s.dev k w }
    | none => .fault .noIssuer
  | _ => .fault .noIssuer

/-- The meaning of an event. -/
def eventStep (s : State) (f : Dev → Dev) : Host.Outcome State Fault Refusal := .next { s with dev := f s.dev }

/-- The word has executed: the scalar thread is at `next`, runnable from the next clock (R362). -/
def Warp.goto (w : Warp) (now : Nat) (next : W64) : Warp :=
  { w with spc := next, park := .run, xs := [], rd := Reads.empty, ready := now + 1, rank := 0 }

/-- The word of len bytes has executed (R27, R30). -/
def Warp.advance (w : Warp) (now len : Nat) : Warp := w.goto now (w.spc + BitVec.ofNat 64 len)

/-- Executes the word in the warp: w' is the warp with the word's effect, and its thread goes on. -/
def done (d : Dev) (k : Nat) (w' : Warp) (len : Nat) : Dev := d.setWarp k (w'.advance d.clock len)

/-- The word cannot issue yet: the thread is not runnable until it can (R360, R361, log 5). -/
def stall (d : Dev) (k : Nat) (w : Warp) : Dev := d.setWarp k { w with park := .again, ready := d.clock + 1, rank := 0 }

/-- A register waits for an earlier result (R225, R226). -/
def Warp.pendingS (w : Warp) (regs : List Nat) : Bool := regs.any (fun r => r != 0 && w.pendS.any (fun x => x.2 == r))

/-- A lane word after a drain waits for the drain's registers (R299). -/
def Warp.pendingV (w : Warp) (codes : List Nat) : Bool :=
  codes.any (fun r => w.pendV.any (fun x => x.2 == r) || w.drains.any (fun x => x.2.1 ≤ w.blocks && x.2.2.contains r))

/-- Waits on the interlocks of R226, then acts. -/
def interlock (regs : List Nat) (f : Dev → Nat → Warp → Dev) (d : Dev) (k : Nat) (w : Warp) : Dev :=
  if w.pendingS regs then stall d k w else f d k w

/-- Every issued lane word has written its results and the lane queue is empty (R388). -/
def lanesDone (w : Warp) : Bool := w.queue.isEmpty && w.pendV.isEmpty && w.lpark == .run

/-- The same, with no drain pending (R201, R210, R299). -/
def lanesDrained (w : Warp) : Bool := lanesDone w && w.drains.isEmpty

/-! ### Latches -/

/-- Invalidates the eight latches of a pipe (R43). -/
def dropLatches (d : Dev) (c p : Nat) : Dev :=
  let x := d.pipe c p
  d.setPipe c p { x with latch := [], valid := 0, epoch := x.epoch + 1 }

/-! ### Fault records (R82, R391, R430) -/

def FCode.num : FCode → Nat
  | .notMapped => 1
  | .writeProt => 2
  | .execProt => 3
  | .nonCanon => 4
  | .pteFormat => 5
  | .outside => 6
  | .tagMisuse => 7
  | .kvFormat => 8
  | .blockMiss => 9

def Cls.num : Cls → Nat
  | .illInst => 1
  | .illOpnd => 2
  | .align => 3
  | .jtBound => 4
  | .jtLand => 5
  | .prot => 6
  | .routine => 7
  | .dataErr => 8
  | .groupErr => 9
  | .nestDepth => 10
  | .user => 11
  | .sysc => 12
  | .halt => 13

def Stream.num : Stream → Nat
  | .scalar => 0
  | .lane => 1
  | .matrix => 2
  | .engine => 3

/-- Number of records a ring holds, when it is set up (R430). -/
def ringSize (r : W64) : Option Nat :=
  let l := bits r 3 0
  if 4 ≤ l ∧ l ≤ 12 then some (2 ^ l) else none

/-- The physical base of a ring (R430). -/
def ringBase (r : W64) : Nat := bits r 51 12 * 4096

/-- The 32 bytes of a fault record (R82), as a number. -/
def FaultRec.bytes (r : FaultRec) : Nat :=
  r.addr % 2 ^ 64 + 2 ^ 64 * (r.seq % 2 ^ 32) + 2 ^ 96 * (r.block % 2 ^ 32) + 2 ^ 128 * r.code.num + 2 ^ 136 * r.kind +
    2 ^ 144 * (r.cluster % 2 ^ 16) + 2 ^ 160 * (r.warp % 256) + 2 ^ 168 * (r.part % 256) + 2 ^ 192 * (r.fseq % 2 ^ 64)

/-- The 128 bytes of a trap record (R386), as a number. -/
def TrapRec.bytes (r : TrapRec) (tseq : Nat) : Nat :=
  r.waddr.toNat + 2 ^ 64 * r.block.toNat + 2 ^ 128 * r.spc.toNat + 2 ^ 192 * r.lmask.toNat + 2 ^ 256 * r.aux.toNat +
    2 ^ 320 * r.nestva.toNat + 2 ^ 384 * (tseq % 2 ^ 64) + 2 ^ 448 * r.cls.num + 2 ^ 456 * r.stream.num +
    2 ^ 464 * r.cluster + 2 ^ 480 * r.wslot + 2 ^ 488 * r.part + 2 ^ 496 * r.cslot +
    2 ^ 512 * (r.args.getD 0 0).toNat + 2 ^ 576 * (r.args.getD 1 0).toNat + 2 ^ 640 * (r.args.getD 2 0).toNat +
    2 ^ 704 * (r.args.getD 3 0).toNat

/-- The place of the next record in a ring, while the ring has room, lies whole within the partition's windows (R424, R430), and nothing
keeps a store to it waiting. -/
def ringPlace (d : Dev) (p : Nat) (ring wr rd : W64) (size : Nat) : Option Nat :=
  match ringSize ring with
  | some n =>
    let a := ringBase ring + size * (wr.toNat % n)
    if wr.toNat - rd.toNat < n ∧ inWindows d p (ringBase ring) (size * n) ∧ !storeWaits d p a size then some a else none
  | none => none

/-- Writes the first held fault record to the ring, when it has room (R391, R430). -/
def flushFault1 (d : Dev) (p : Nat) : Dev :=
  let x := d.part p
  match x.heldF, ringPlace d p x.fring x.frw x.frr 32 with
  | r :: rest, some a => ((agentWriteN d p a 32 r.bytes).setPart p { x with heldF := rest, frw := x.frw + 1 }).raise (4 * p + 1)
  | _, _ => d

/-- The record of trap `num` has been written with its sequence number (R384, R386). -/
def Warp.recorded (w : Warp) (num tseq : Nat) : Warp :=
  { w with stop := w.stop.map (fun t =>
      if t.num = num then { t with tseq := some tseq, written := true } else { t with later := t.later.filter (· != num) }) }

/-- The warp whose record was written learns it, saved ones too (R407). -/
def recordWritten (d : Dev) (num tseq : Nat) : Dev :=
  let nest := fun (n : Nest) => { n with saved := n.saved.map (fun g => g.map (fun c =>
    { c with warps := c.warps.map (fun w => w.recorded num tseq) })) }
  { d with
    warps := d.warps.map (fun e => (e.1, e.2.recorded num tseq))
    nests := d.nests.map (fun e => (e.1, nest e.2))
    savedNests := d.savedNests.map (fun e => { e with nest := nest e.nest }) }

/-- Writes the first held trap record to the ring, when its clock has passed and the ring has room, and raises the error vector (R387,
R430). -/
def flushTrap1 (d : Dev) (p : Nat) : Dev :=
  let x := d.part p
  match x.heldT, ringPlace d p x.tring x.trw x.trr 128 with
  | r :: rest, some a =>
    if r.at_ < d.clock then
      let d := agentWriteN d p a 128 (r.bytes x.tseq)
      let d := d.setPart p { x with heldT := rest, trw := x.trw + 1, tseq := x.tseq + 1 }
      (recordWritten d r.num x.tseq).raise (4 * p + 1)
    else d
  | _, _ => d

/-- Runs a step n times. -/
def times {α : Type} (f : α → α) : Nat → α → α
  | 0, x => x
  | n + 1, x => times f n (f x)

/-- Writes every held record that has room. -/
def flushRecords (d : Dev) (p : Nat) : Dev :=
  let d := times (fun d => flushFault1 d p) (d.part p).heldF.length d
  times (fun d => flushTrap1 d p) (d.part p).heldT.length d

/-- A new fault record of the partition (R82); answers its FSEQ. Records of code 9 wait for no resolution (R91). -/
def addFault (d : Dev) (p addr seq block : Nat) (code : FCode) (kind cluster warp : Nat) : Dev × Nat :=
  let x := d.part p
  let r : FaultRec := ⟨addr, seq, block, code, kind, cluster, warp, p, x.fseq⟩
  let x := { x with fseq := x.fseq + 1, heldF := x.heldF ++ [r], open_ := if code = .blockMiss then x.open_ else x.open_ ++ [r] }
  (flushRecords (d.setPart p x) p, r.fseq)

/-! ### Taking a trap (R384 to R389) -/

/-- The fate of a class (R384): true for END. -/
def Cls.ends : Cls → Bool
  | .routine => false
  | .dataErr => false
  | .user => false
  | .sysc => false
  | _ => true

/-- The key that children of a saved nest name (own). -/
def savedKey (n : Nest) : Nat := 2 ^ 20 + n.born

/-- The nest with this key, resident or saved, is ending. -/
def endingAt (d : Dev) (key : Nat) : Bool :=
  ((d.nests.get? key).map (·.ending)).getD false || d.savedNests.any (fun e => savedKey e.nest == key && e.nest.ending)

/-- Marks the nests whose parent is ending (R389). -/
def markEnding (d : Dev) : Dev :=
  let f := fun (n : Nest) => { n with ending := n.ending || ((n.parent.map (fun p => endingAt d p.1)).getD false) }
  { d with
    nests := d.nests.map (fun e => (e.1, f e.2))
    savedNests := d.savedNests.map (fun e => { e with nest := f e.nest }) }

/-- An END fate: the nest and every nest descended from it end (R389); nesting is at most ten deep (R354). -/
def endNest (d : Dev) (nk : Nat) : Dev :=
  let d := { d with
    nests := d.nests.modify nk (fun n => { n with ending := true })
    savedNests := d.savedNests.map (fun e => if savedKey e.nest = nk then { e with nest := { e.nest with ending := true } } else e) }
  times markEnding 10 d

/-- The records of one clock are written in increasing cluster, then warp slot (R387). -/
def trapBefore (a b : TrapRec) : Bool :=
  a.at_ < b.at_ || (a.at_ == b.at_ && (a.cluster < b.cluster || (a.cluster == b.cluster && a.wslot < b.wslot)))

/-- Puts a record among those still to be written. -/
def insertTrap (r : TrapRec) : List TrapRec → List TrapRec
  | [] => [r]
  | x :: l => if trapBefore r x then r :: x :: l else x :: insertTrap r l

/-- Hands a trap record to the fault service (R386, R387). -/
def postTrap (d : Dev) (p : Nat) (r : TrapRec) : Dev :=
  d.setPart p { d.part p with heldT := insertTrap r (d.part p).heldT }

/-- The warp's request leaves the wait list of its pipe (R208). -/
def withdrawGrow (d : Dev) (k : Nat) (w : Warp) : Dev :=
  let x := d.pipe w.cluster w.pipe
  d.setPipe w.cluster w.pipe { x with grow := x.grow.filter (fun g => g.1 != k) }

/-- Taking a trap: the warp stops, the pipe's latches are invalid, the record goes to the fault service, and an END class
ends the nest (R384 to R386, R389). A warp that is stopped already waits for this record too (R384), and one that has come to its ppoint or
its pdone stays there. The caller has put the streams where they restart (R385). -/
def takeTrap (d : Dev) (k : Nat) (w : Warp) (stream : Stream) (cls : Cls) (waddr block : Nat) (lmask : Mask) (aux : W64)
    (args : List W64) : Dev :=
  let nk := ((d.crewOf w).map (·.id.nest)).getD 0
  let num := d.nextId
  let r : TrapRec := ⟨num, BitVec.ofNat 64 waddr, BitVec.ofNat 64 block, w.spc, lmask, aux,
    BitVec.ofNat 64 (((d.nestOf w).map (·.va)).getD 0), cls, stream, w.cluster, w.wslot, d.partOf w, w.cslot, args, d.clock⟩
  let p := d.partOf w
  let stop := match w.stop with
    | none => ⟨cls, stream, num, none, false, []⟩
    | some t => { t with later := t.later ++ [num] }
  let w := { w with stop := some stop, xs := [], xl := [], rd := Reads.empty, rl := Reads.empty, bind := none,
                    park := (if w.park == .point || w.park == .save then w.park else .run) }
  let d := { d with nextId := num + 1 }
  let d := withdrawGrow (dropLatches (d.setWarp k w) w.cluster w.pipe) k w
  let d := if cls.ends then endNest d nk else d
  postTrap d p r

/-- A trap at a scalar word (R385): END leaves SPC at the word, the other fates restart after it. -/
def scalarTrap (d : Dev) (k : Nat) (w : Warp) (len : Nat) (cls : Cls) (aux : W64) (args : List W64) : Dev :=
  let d := takeTrap d k w .scalar cls w.spc.toNat 0 0 aux args
  if cls.ends then d else d.modWarp k (fun x => { x with spc := w.spc + BitVec.ofNat 64 len })

/-- An illegal-instruction or illegal-operand trap with its failing field (R386). -/
def illegal (d : Dev) (k : Nat) (w : Warp) (c : Cls × Nat) : Dev := scalarTrap d k w 4 c.1 (BitVec.ofNat 64 c.2) []

/-- A protection fault at a scalar word (R80, R384). -/
def protFault (d : Dev) (k : Nat) (w : Warp) (c : FCode) : Dev :=
  scalarTrap d k w 4 .prot (BitVec.ofNat 64 c.num) []

/-- Whether a warp has resumed from its trap: it runs again (R384, R387). -/
def resumeWarp (d : Dev) (k : Nat) : Dev :=
  d.modWarp k (fun w => { w with stop := none, ready := d.clock + 1, lready := d.clock + 1 })

/-! ### Outstanding accesses and fences (R313) -/

/-- The open operations of a warp that satisfy a test. -/
def opsOf (d : Dev) (k : Nat) (f : MemOp → Bool) : List Nat :=
  (d.ops.filter (fun e => e.2.warp == k && f e.2)).map (·.1)

def OpKind.isRead : OpKind → Bool
  | .load .. | .atom .. | .satom .. | .sload .. | .fetch .. | .ldr .. => true
  | _ => false

def OpKind.isKvx : OpKind → Bool
  | .kvx .. => true
  | _ => false

def OpKind.isWrite : OpKind → Bool
  | .store | .sstore | .cache | .atom .. | .satom .. | .str => true
  | _ => false

/-- Every earlier load, invocation, ldr and tile-fetch pin of the warp has its value (R313). -/
def readsDone (d : Dev) (k : Nat) : Bool :=
  (opsOf d k (fun o => o.kind.isRead)).isEmpty &&
    d.mops.all (fun e => match e.2.kind with
      | .mma .. => e.2.warp != k || e.2.vlines.isEmpty
      | _ => true)

/-- Every earlier write of the warp has left its cluster (R313). -/
def writesLeft (d : Dev) (k : Nat) (w : Warp) : Bool :=
  (d.cluster w.cluster).outq.all (fun x => match d.ops.get? x.1 with
    | some o => o.warp != k || !o.kind.isWrite
    | none => true)

/-- Every write of the cluster that updated its L1 is performed at its pan (R311, R313). -/
def clusterWritesDone (d : Dev) (c : Nat) : Bool :=
  d.ops.all (fun e => e.2.cluster != c || !e.2.kind.isWrite || e.2.subs.all (fun u => u.2.st != .sent))

/-- An access that is still to be performed: at a peer, a write until the peer's acknowledgement (R315). -/
def Sub.unperformed (u : Sub) : Bool :=
  u.st == .sent || u.st == .far || (isPeer (u.line * 64) && u.act.isWrite && u.st != .back)

/-- Every write of the cluster is performed with respect to every party, those to peers and hosts too (R311, R313, R315). -/
def clusterFarDone (d : Dev) (c : Nat) : Bool :=
  d.ops.all (fun e => e.2.cluster != c || !e.2.kind.isWrite || e.2.subs.all (fun u => !u.2.unperformed))

/-- Every earlier str of the warp is performed (R324, row XS). -/
def strsDone (d : Dev) (k : Nat) : Bool :=
  d.ops.all (fun e => e.2.warp != k || e.2.kind != .str || e.2.remotes.all (·.2.done))

/-- The waits of a fence of the given scope for the accesses the warp has issued (R313, R324); rel says that it releases. -/
def accessesOrdered (d : Dev) (k : Nat) (w : Warp) (rel : Bool) (sc : Scope) : Bool :=
    (sc == .w || (readsDone d k && strsDone d k)) &&
    (!rel || ((sc == .w || writesLeft d k w) &&
      (sc == .w || sc == .c || (w.outG.isEmpty && w.outX.isEmpty && w.outA.isEmpty && clusterWritesDone d w.cluster)) &&
      (sc != .y || (w.acks == 0 && clusterFarDone d w.cluster))))

/-- The waits of a fence word: the warp's lane blocks have issued, then as above (R313). -/
def fenceReady (d : Dev) (k : Nat) (w : Warp) (rel : Bool) (sc : Scope) : Bool :=
  w.queue.isEmpty && w.lpark == .run && accessesOrdered d k w rel sc

/-- Forbids the installation in L1 of requests whose reply is still to come. -/
def noInstall (d : Dev) (c : Nat) (f : Sub → Bool) : Dev :=
  { d with ops := d.ops.map (fun e =>
      if e.2.cluster = c then (e.1, { e.2 with subs := e.2.subs.map (fun u => if f u.2 then (u.1, { u.2 with noInstall := true }) else u) })
      else e) }

/-- Invalidates every line of a cluster's L1 (R313); loads performed before do not install after. -/
def invalidateL1 (d : Dev) (c : Nat) : Dev :=
  noInstall (d.setCluster c { d.cluster c with l1 := [] }) c (fun _ => true)

/-- The action of an acquire at a scope (R313). -/
def acquireAct (d : Dev) (c : Nat) (sc : Scope) : Dev :=
  if sc = .w ∨ sc = .c then d else invalidateL1 d c

/-- The invocations of a warp's acquires have returned, and the waits of their fences are over (R143, R313). -/
def acquiresDone (d : Dev) (k : Nat) (w : Warp) : Bool :=
  w.acquires.all (fun e => (d.ops.get? e.1).isNone && (!e.2.2 || (w.queue.isEmpty && w.lpark == .run)) && accessesOrdered d k w false e.2.1)

/-- Completes the acquires of a warp whose waits are over. -/
def settleAcquires (d : Dev) (k : Nat) (w : Warp) : Dev :=
  if w.acquires.isEmpty || !acquiresDone d k w then d
  else w.acquires.foldl (fun d e => acquireAct d w.cluster e.2.1) (d.modWarp k (fun w => { w with acquires := [] }))

/-- The scope codes of R58. -/
def scopeOf : Nat → Scope
  | 0 => .w
  | 1 => .c
  | 2 => .g
  | 3 => .d
  | 4 => .v
  | _ => .y

def Scope.num : Scope → Nat
  | .w => 0
  | .c => 1
  | .g => 2
  | .d => 3
  | .v => 4
  | .y => 5

end Sys2Proof.Machine
end

