-- ==== Sys2Proof/Machine/Check.lean ====
section
/-!
DEFINITION. The checks of a scalar word after its opcode (R60): types, reserved fields, operand fields, in that order, with
the failing-field numbers of R386.
-/
namespace Sys2Proof.Machine

/-- The first check that fails. -/
def firstBad : List (Bool × Cls × Nat) → Option (Cls × Nat)
  | [] => none
  | (ok, c) :: r => if ok then firstBad r else some c

/-- The type code is legal (step 3). -/
def ckType (ok : Bool) : Bool × Cls × Nat := (ok, .illInst, 2)
/-- A reserved field is zero (step 4). -/
def ckZero (ok : Bool) : Bool × Cls × Nat := (ok, .illInst, 3)
/-- Operand fields d, a, b (step 5). -/
def ckD (ok : Bool) : Bool × Cls × Nat := (ok, .illOpnd, 4)
def ckA (ok : Bool) : Bool × Cls × Nat := (ok, .illOpnd, 5)
def ckB (ok : Bool) : Bool × Cls × Nat := (ok, .illOpnd, 6)
def ckImm (ok : Bool) : Bool × Cls × Nat := (ok, .illOpnd, 7)

/-- The word's checks pass, or it traps before anything else (R60, R361). -/
def checked (l : List (Bool × Cls × Nat)) (f : Dev → Nat → Warp → Dev) (d : Dev) (k : Nat) (w : Warp) : Dev :=
  match firstBad l with
  | some c => illegal d k w c
  | none => f d k w

end Sys2Proof.Machine
end

