-- ==== Sys2Proof/Machine/Flags.lean ====
section
/-!
DEFINITION. Comparison conditions and the sticky flags of WSTAT (R57, R202, R219, R238).
-/
namespace Sys2Proof.Machine

/-- The six ordered conditions of R57: 0 eq, 1 ne, 2 lt, 3 le, 4 gt, 5 ge. -/
def condInt (c : Nat) (x y : Int) : Bool :=
  match c with
  | 0 => x == y
  | 1 => x != y
  | 2 => decide (x < y)
  | 3 => decide (x ≤ y)
  | 4 => decide (y < x)
  | _ => decide (y ≤ x)

/-- Merges flags into WSTAT (R202, R239). -/
def Warp.orFlags (w : Warp) (f : W64) : Warp := { w with wstat := w.wstat ||| f }

/-- The value of an n-bit pattern, signed or unsigned (R217). -/
def val {n : Nat} (x : BitVec n) (sg : Bool) : Int := if sg then x.toInt else (x.toNat : Int)

/-- The number of one bits (R217). -/
def popCount (x : Nat) : Nat → Nat
  | 0 => 0
  | n + 1 => x % 2 + popCount (x / 2) n

/-- The number of leading zero bits of an n-bit pattern (R217). -/
def leadZeros (x : Nat) : Nat → Nat
  | 0 => 0
  | n + 1 => if x / 2 ^ n % 2 = 1 then 0 else 1 + leadZeros x n

end Sys2Proof.Machine
end

