-- ==== Sys2Proof/Machine/Numbers.lean ====
section
/-!
DEFINITION. Number formats and rounding (R227 to R238), exact arithmetic on decoded numbers (R244, R249), S8 scales and Q4X
blocks (R231 to R233), and the floating operations of routines (R124).
-/
namespace Sys2Proof.Machine

/-- A decoded number: NaN, an infinity, or (-1)^neg * m * 2^e, zero included with its sign (R227 to R229). -/
inductive Num where
  | nan
  | inf (neg : Bool)
  | fin (neg : Bool) (m : Nat) (e : Int)
  deriving DecidableEq, Repr

/-- A floating-point format of R227: exponent and mantissa widths, bias, and whether it is E4M3. -/
structure Fmt where
  eb : Nat
  mb : Nat
  bias : Int
  e4m3 : Bool
  deriving DecidableEq, Repr

def fFP32 : Fmt := ⟨8, 23, 127, false⟩
def fFP16 : Fmt := ⟨5, 10, 15, false⟩
def fBF16 : Fmt := ⟨8, 7, 127, false⟩
def fE4M3 : Fmt := ⟨4, 3, 7, true⟩
def fE5M2 : Fmt := ⟨5, 2, 15, false⟩

/-- The format of a type code (R34), FP32 for the codes that are none. -/
def fmtOf (t : Nat) : Fmt :=
  match t with
  | 9 => fFP16
  | 10 => fBF16
  | 11 => fE4M3
  | 12 => fE5M2
  | _ => fFP32

def isFloat (t : Nat) : Bool := 8 ≤ t && t ≤ 12

def Fmt.width (f : Fmt) : Nat := 1 + f.eb + f.mb
/-- Exponent of the subnormal spacing. -/
def Fmt.emin (f : Fmt) : Int := 1 - f.bias - f.mb
def Fmt.signBit (f : Fmt) : Nat := 2 ^ (f.eb + f.mb)
def Fmt.nan (f : Fmt) : Nat := if f.e4m3 then 0x7F else (2 ^ f.eb - 1) * 2 ^ f.mb + 2 ^ (f.mb - 1)
def Fmt.infBits (f : Fmt) (neg : Bool) : Nat := (2 ^ f.eb - 1) * 2 ^ f.mb + (if neg then f.signBit else 0)
def Fmt.maxBits (f : Fmt) (neg : Bool) : Nat :=
  (if f.e4m3 then 0x7E else (2 ^ f.eb - 2) * 2 ^ f.mb + (2 ^ f.mb - 1)) + (if neg then f.signBit else 0)

/-- decode of R229. -/
def decodeF (f : Fmt) (b : Nat) : Num :=
  let neg := decide (b / f.signBit % 2 = 1)
  let e := b / 2 ^ f.mb % 2 ^ f.eb
  let m := b % 2 ^ f.mb
  if e = 2 ^ f.eb - 1 ∧ (!f.e4m3 ∨ m = 7) then
    if f.e4m3 then .nan else if m = 0 then .inf neg else .nan
  else if e = 0 then .fin neg m f.emin
  else .fin neg (2 ^ f.mb + m) ((e : Int) - f.bias - f.mb)

/-- Position of the highest one bit; 0 for 0. -/
def topBit (m : Nat) : Nat := Nat.log2 m

/-- m * 2^e rounded by RM to p bits with spacing at least 2^emin (R235); `sticky` says that the exact value lies a little
above m * 2^e in magnitude. Answers n, q with value n * 2^q, and whether it differs. RM: 0 nearest-even, 1 toward zero,
2 down, 3 up. -/
def roundMag (p : Nat) (emin : Int) (rm : Nat) (neg : Bool) (m : Nat) (e : Int) (sticky : Bool) : Nat × Int × Bool :=
  let q := max ((topBit m : Int) + e - ((p : Int) - 1)) emin
  let q := if m = 0 then emin else q
  if q ≤ e then
    let n := m * 2 ^ (e - q).toNat
    let up := sticky && ((rm == 2 && neg) || (rm == 3 && !neg))
    (if up then n + 1 else n, q, sticky)
  else
    let s := (q - e).toNat
    let lo := m % 2 ^ s
    let n := m / 2 ^ s
    let half := 2 ^ (s - 1)
    let inexact := lo != 0 || sticky
    let up := match rm with
      | 0 => decide (half < lo) || (lo == half && (sticky || n % 2 == 1))
      | 1 => false
      | 2 => inexact && neg
      | _ => inexact && !neg
    (if up then n + 1 else n, q, inexact)

/-- Compares n * 2^q with n' * 2^q'. -/
def magLt (n : Nat) (q : Int) (n' : Nat) (q' : Int) : Bool :=
  let b := min q q'
  n * 2 ^ (q - b).toNat < n' * 2 ^ (q' - b).toNat

/-- The bit pattern of n * 2^q, which the format holds. -/
def packFin (f : Fmt) (neg : Bool) (n : Nat) (q : Int) : Nat :=
  let s := if neg then f.signBit else 0
  if n = 0 then s
  else
    let ex := (topBit n : Int) + q
    if ex < 1 - f.bias then s + (if f.emin ≤ q then n * 2 ^ (q - f.emin).toNat else n / 2 ^ (f.emin - q).toNat)
    else
      let t := topBit n
      let m := if t ≤ f.mb then n * 2 ^ (f.mb - t) else n / 2 ^ (t - f.mb)
      s + (ex + f.bias).toNat * 2 ^ f.mb + (m - 2 ^ f.mb)

/-- overflow of R235 by RM and SAT. -/
def overflowBits (f : Fmt) (rm : Nat) (sat neg : Bool) : Nat :=
  let big := if f.e4m3 then f.nan else f.infBits neg
  if sat then f.maxBits neg
  else match rm with
    | 0 => big
    | 1 => f.maxBits neg
    | 2 => if neg then big else f.maxBits neg
    | _ => if neg then f.maxBits neg else big

/-- round_to of R235, with a sticky magnitude: the pattern and the flags it sets. -/
def roundTo (f : Fmt) (rm : Nat) (sat : Bool) (x : Num) (sticky : Bool := false) : Nat × W64 :=
  match x with
  | .nan => (f.nan, 0)
  | .inf neg => if sat then (f.maxBits neg, fOF) else if f.e4m3 then (f.nan, fNV) else (f.infBits neg, 0)
  | .fin neg m e =>
    if m = 0 ∧ !sticky then (if neg then f.signBit else 0, 0)
    else
      let tiny := magLt m e 1 (1 - f.bias)
      let (n, q, inexact) := roundMag (f.mb + 1) f.emin rm neg m e sticky
      let flags := if inexact then (if tiny then fNX ||| fUF else fNX) else 0
      let tooBig := match decodeF f (f.maxBits false) with
        | .fin _ mm me => magLt mm me n q
        | _ => false
      if tooBig then (overflowBits f rm sat neg, fNX ||| fOF) else (packFin f neg n q, flags)

/-- Into FP32: nearest-even without saturation (R234). -/
def toFP32 (x : Num) : W32 × W64 :=
  let r := roundTo fFP32 0 false x
  (BitVec.ofNat 32 r.1, r.2)

def decode32 (b : W32) : Num := decodeF fFP32 b.toNat

/-! ### Exact arithmetic -/

/-- The signed value of a finite number at exponent b. -/
def signedAt (neg : Bool) (m : Nat) (e b : Int) : Int :=
  let v : Int := (m * 2 ^ (e - b).toNat : Nat)
  if neg then -v else v

/-- x + y exactly; zero's sign as R249 gives, `down` being the rounding mode "down". The flag is NV. -/
def addNum (down : Bool) (x y : Num) : Num × W64 :=
  match x, y with
  | .nan, _ => (.nan, 0)
  | _, .nan => (.nan, 0)
  | .inf a, .inf b => if a = b then (.inf a, 0) else (.nan, fNV)
  | .inf a, _ => (.inf a, 0)
  | _, .inf b => (.inf b, 0)
  | .fin a m e, .fin b n g =>
    let k := min e g
    let s := signedAt a m e k + signedAt b n g k
    if s = 0 then
      if m = 0 ∧ n = 0 ∧ a = b then (.fin a 0 0, 0) else (.fin down 0 0, 0)
    else (.fin (decide (s < 0)) s.natAbs k, 0)

def mulNum (x y : Num) : Num × W64 :=
  match x, y with
  | .nan, _ => (.nan, 0)
  | _, .nan => (.nan, 0)
  | .inf a, .inf b => (.inf (a != b), 0)
  | .inf a, .fin b n _ => if n = 0 then (.nan, fNV) else (.inf (a != b), 0)
  | .fin a m _, .inf b => if m = 0 then (.nan, fNV) else (.inf (a != b), 0)
  | .fin a m e, .fin b n g => (.fin (a != b) (m * n) (e + g), 0)

def negNum : Num → Num
  | .nan => .nan
  | .inf a => .inf (!a)
  | .fin a m e => .fin (!a) m e

def absNum : Num → Num
  | .nan => .nan
  | .inf _ => .inf false
  | .fin _ m e => .fin false m e

/-- Numeric order for numbers that are not NaN; -0 equals +0. -/
def numLt (x y : Num) : Bool :=
  match x, y with
  | .inf a, .inf b => a && !b
  | .inf a, .fin .. => a
  | .fin .., .inf b => !b
  | .fin a m e, .fin b n g =>
    let k := min e g
    decide (signedAt a m e k < signedAt b n g k)
  | _, _ => false

def isNan : Num → Bool
  | .nan => true
  | _ => false

def isNeg : Num → Bool
  | .nan => false
  | .inf a => a
  | .fin a _ _ => a

/-- minimumNumber, with -0 below +0 (R124, R249). -/
def minNum (x y : Num) : Num :=
  if isNan x then y else if isNan y then x
  else if numLt x y then x else if numLt y x then y else if isNeg x then x else y

def maxNum (x y : Num) : Num :=
  if isNan x then y else if isNan y then x
  else if numLt x y then y else if numLt y x then x else if isNeg x then y else x

/-- A finite number rounded to an integer by RM: the integer's magnitude and whether it differs (R236, R250). -/
def roundInt (rm : Nat) (neg : Bool) (m : Nat) (e : Int) : Nat × Bool :=
  if 0 ≤ e then (m * 2 ^ e.toNat, false)
  else
    let s := (-e).toNat
    let lo := m % 2 ^ s
    let n := m / 2 ^ s
    let up := match rm with
      | 0 => decide (2 ^ (s - 1) < lo) || (lo == 2 ^ (s - 1) && n % 2 == 1)
      | 1 => false
      | 2 => lo != 0 && neg
      | _ => lo != 0 && !neg
    (if up then n + 1 else n, lo != 0)

/-- An integer as a number. -/
def intNum (i : Int) : Num := .fin (decide (i < 0)) i.natAbs 0

/-- NMODE's control for a destination (R203, R258): RM and SAT. -/
def control (nmode : W64) (t : Nat) : Nat × Bool :=
  let f := match t with
    | 9 => 0
    | 10 => 1
    | 11 => 2
    | 12 => 3
    | 13 => 5
    | 14 => 6
    | _ => 4
  if t = 8 then (0, false) else (bits nmode (3 * f + 1) (3 * f), bit nmode (3 * f + 2))

/-- Rounds into the float type t under NMODE; FP32 never reads it (R234, R244). -/
def roundType (nmode : W64) (t : Nat) (x : Num) : Nat × W64 :=
  let c := control nmode t
  roundTo (fmtOf t) c.1 c.2 x

/-! ### Routine arithmetic (R124): nearest-even, no flags -/

def rtAddF32 (a b : Nat) : Nat := (roundTo fFP32 0 false (addNum false (decodeF fFP32 a) (decodeF fFP32 b)).1).1
def rtMinF32 (a b : Nat) : Nat := (roundTo fFP32 0 false (minNum (decodeF fFP32 a) (decodeF fFP32 b))).1
def rtMaxF32 (a b : Nat) : Nat := (roundTo fFP32 0 false (maxNum (decodeF fFP32 a) (decodeF fFP32 b))).1
def rtAddBF16Half (a b : Nat) : Nat := (roundTo fBF16 0 false (addNum false (decodeF fBF16 a) (decodeF fBF16 b)).1).1
def rtAddBF16 (a b : Nat) : Nat :=
  rtAddBF16Half (a % 65536) (b % 65536) + 65536 * rtAddBF16Half (a / 65536 % 65536) (b / 65536 % 65536)

/-! ### Scales and Q4X (R230 to R233) -/

/-- scale_of (R231): the scale as m * 2^e, zero as m = 0, and its flag. -/
def scaleOf (s8 : Nat) : Nat × Int × W64 :=
  let e := s8 / 8 % 32
  let m := s8 % 8
  if e = 0 then (0, 0, 0) else if e = 31 then (0, 0, fNARROW) else (8 + m, (e : Int) - 19, 0)

/-- An INT4 code: its value and flag (R230). -/
def int4 (c : Nat) : Int × W64 := if c % 16 = 8 then (0, fNARROW) else ((BitVec.ofNat 4 c).toInt, 0)

/-- q4x_values (R233): the scan from slot i over the remaining slots; n outliers found, `used` the consumed slots. -/
def q4xScan (slots : List Nat) (hdr : Nat) : List Nat → Nat → List Nat → List (Nat × Num) → W64 → List (Nat × Num) × W64
  | [], _, _, acc, fl => (acc, fl)
  | i :: rest, n, used, acc, fl =>
    if used.contains i then q4xScan slots hdr rest n used acc fl
    else
      let c := slots.getD i 0
      if c = 8 ∧ n < 2 then
        let j := i ^^^ 1
        let x := (hdr / 2 ^ (8 + 4 * n) % 16) * 16 + slots.getD j 0
        q4xScan slots hdr rest (n + 1) (j :: used) ((i, decodeF fE4M3 x) :: (j, .fin false 0 0) :: acc.filter (fun e => e.1 != j)) fl
      else if c = 8 then q4xScan slots hdr rest n used ((i, .fin false 0 0) :: acc) (fl ||| fNARROW)
      else q4xScan slots hdr rest n used ((i, intNum (BitVec.ofNat 4 c).toInt) :: acc) fl

/-- The values of a block before its scale, by slot, with the flags of the scan. -/
def q4xValues (slots : List Nat) (hdr : Nat) : List Num × W64 :=
  let r := q4xScan slots hdr (List.range slots.length) 0 [] [] 0
  ((List.range slots.length).map (fun i => ((r.1.find? (fun e => e.1 == i)).map (·.2)).getD (.fin false 0 0)), r.2)

/-- Integer square root by bits, from bit n down. -/
def isqrt (x : Nat) : Nat → Nat → Nat
  | 0, r => if (r + 1) * (r + 1) ≤ x then r + 1 else r
  | n + 1, r => isqrt x n (if (r + 2 ^ (n + 1)) * (r + 2 ^ (n + 1)) ≤ x then r + 2 ^ (n + 1) else r)

end Sys2Proof.Machine
end

