-- ==== Sys2Proof/Machine/Special.lean ====
section
/-!
DEFINITION. The special functions (R253 to R255). An implementation chooses the bits of a result only within R254: the free function
of Config is kept where it meets the bound and the order, and replaced where it does not. Reals are integers at scale 2^-200 (log 7).
-/
namespace Sys2Proof.Machine

/-- The scale of the fixed-point reals, in bits. -/
def fxBits : Nat := 200

/-- The integer 1 at that scale. -/
def fxOne : Int := 2 ^ fxBits

/-- A finite number at that scale; exact for every finite FP32 number. -/
def fxOf (neg : Bool) (m : Nat) (e : Int) : Int := signedAt neg m e (-(fxBits : Int))

/-- The product of two fixed-point reals. -/
def fxMul (x y : Int) : Int := x * y / fxOne

/-- The quotient of two fixed-point reals. -/
def fxDiv (x y : Int) : Int := x * fxOne / y

/-- The series t + t x / (c + 1) + ...: each term is the one before, times x, over the next count; n terms. -/
def expTerms (x : Int) : Nat → Nat → Int → Int
  | 0, _, _ => 0
  | n + 1, c, t => t + expTerms x n (c + 1) (fxMul t x / (c + 1 : Nat))

/-- The sum of t / c + t x / (c + 2) + ..., with n terms. -/
def oddTerms (x : Int) : Nat → Nat → Int → Int
  | 0, _, _ => 0
  | n + 1, c, t => t / (c : Nat) + oddTerms x n (c + 2) (fxMul t x)

/-- The natural logarithm of (1 + z) / (1 - z), for z at most 1/3 in magnitude. -/
def lnRatio (z : Int) : Int := 2 * oddTerms (fxMul z z) 80 1 z

/-- ln 2. -/
def ln2 : Int := lnRatio (fxOne / 3)

/-- The arc tangent of 1 / n at scale 2^-400: k terms, the next one t / c. -/
def atanInv (n : Nat) : Nat → Nat → Int → Int
  | 0, _, _ => 0
  | k + 1, c, t => t / (c : Nat) - atanInv n k (c + 2) (t / (n * n : Nat))

/-- 2 pi at scale 2^-400, by Machin's formula. -/
def twoPi400 : Int := 8 * (4 * atanInv 5 100 1 (2 ^ 400 / 5) - atanInv 239 40 1 (2 ^ 400 / 239))

/-- 2^x. Below 2^-400 it is 0 at this scale. -/
def fxExp2 (x : Int) : Int :=
  let n := x / fxOne
  let y := expTerms (fxMul (x - n * fxOne) ln2) 70 0 fxOne
  if n < -400 then 0
  else if 0 ≤ n then y * 2 ^ n.toNat else y / 2 ^ (-n).toNat

/-- The logarithm to base 2 of m * 2^e. -/
def fxLog2 (m : Nat) (e : Int) : Int :=
  let k := topBit m
  fxDiv (lnRatio (fxDiv ((m : Int) - 2 ^ k) ((m : Int) + 2 ^ k))) ln2 + ((k : Int) + e) * fxOne

/-- x reduced by multiples of 2 pi to [-pi, pi). -/
def fxReduce (x : Int) : Int :=
  let y := x * 2 ^ 200 % twoPi400
  (if twoPi400 ≤ 2 * y then y - twoPi400 else y) / 2 ^ 200

/-- Terms of the sine (c = 1) or cosine (c = 0): t - t x^2 / ((c + 1) (c + 2)) + ... -/
def trigTerms (x2 : Int) : Nat → Nat → Int → Int
  | 0, _, _ => 0
  | n + 1, c, t => t - trigTerms x2 n (c + 2) (fxMul t x2 / ((c + 1) * (c + 2) : Nat))

/-- sin x and cos x. -/
def fxSin (x : Int) : Int := let r := fxReduce x; trigTerms (fxMul r r) 40 1 r
def fxCos (x : Int) : Int := let r := fxReduce x; trigTerms (fxMul r r) 40 0 fxOne

/-- 1 / (1 + e^-x). Beyond 200 in magnitude it is 0 or 1 at this scale. -/
def fxSigmoid (x : Int) : Int :=
  if 200 * fxOne ≤ x then fxOne
  else if x ≤ -200 * fxOne then 0
  else fxDiv fxOne (fxOne + fxExp2 (fxDiv (-x) ln2))

/-- tanh x = 2 sigmoid(2x) - 1. -/
def fxTanh (x : Int) : Int := 2 * fxSigmoid (2 * x) - fxOne

/-- The square root of 2 / pi. -/
def rootTwoOverPi : Int := (isqrt (4 * 2 ^ 800 / twoPi400).toNat 201 0 : Nat)

/-- The formula of R253, with 0.5 (1 + tanh u) = sigmoid(2u). -/
def fxGelu (x : Int) : Int :=
  fxMul x (fxSigmoid (2 * fxMul rootTwoOverPi (x + 44715 * fxMul (fxMul x x) x / 1000000)))

/-- 1 / sqrt x. -/
def fxRsqrt (x : Int) : Int := (isqrt (2 ^ (3 * fxBits) / x.toNat) 400 0 : Nat)

/-- The ulp of FP32 at a value (R254). -/
def fxUlp (y : Int) : Int := 2 ^ (max (topBit y.natAbs) (fxBits - 126) - 23)

/-- A bound 2^-n, absolute. -/
def fxAbs (n : Nat) : Int := 2 ^ (fxBits - n)

/-- The ten functions. -/
inductive Fn where
  | exp2 | log2 | rcp | rsqrt | sqrt | sin | cos | tanh | sigmoid | gelu
  deriving DecidableEq, Repr

def one32 : W32 := 0x3F800000
def half32 : W32 := 0x3F000000
def nan32 : W32 := 0x7FC00000
def inf32 (neg : Bool) : W32 := if neg then 0xFF800000 else 0x7F800000
def zero32 (neg : Bool) : W32 := if neg then 0x80000000 else 0

/-- The table of R255 and the exact case of log2 1; none for an input it does not list. -/
def fnSpecial (f : Fn) (x : Num) : Option (W32 × W64) :=
  match f, x with
  | _, .nan => some (nan32, 0)
  | .exp2, .inf neg => some (if neg then zero32 false else inf32 false, 0)
  | .exp2, .fin _ 0 _ => some (one32, 0)
  | .log2, .inf neg => some (if neg then (nan32, fNV) else (inf32 false, 0))
  | .log2, .fin neg m e =>
    if m = 0 then some (inf32 true, fDZ) else if neg then some (nan32, fNV)
    else if e ≤ 0 ∧ m = 2 ^ (-e).toNat then some (zero32 false, 0) else none
  | .rcp, .inf neg => some (zero32 neg, 0)
  | .rcp, .fin neg 0 _ => some (inf32 neg, fDZ)
  | .rsqrt, .inf neg => some (if neg then (nan32, fNV) else (zero32 false, 0))
  | .rsqrt, .fin neg m _ => if m = 0 then some (inf32 neg, fDZ) else if neg then some (nan32, fNV) else none
  | .sqrt, .inf neg => some (if neg then (nan32, fNV) else (inf32 false, 0))
  | .sqrt, .fin neg m _ => if m = 0 then some (zero32 neg, 0) else if neg then some (nan32, fNV) else none
  | .sin, .inf _ => some (nan32, fNV)
  | .sin, .fin neg 0 _ => some (zero32 neg, 0)
  | .cos, .inf _ => some (nan32, fNV)
  | .cos, .fin _ 0 _ => some (one32, 0)
  | .tanh, .inf neg => some (if neg then 0xBF800000 else one32, 0)
  | .tanh, .fin neg 0 _ => some (zero32 neg, 0)
  | .sigmoid, .inf neg => some (if neg then zero32 false else one32, 0)
  | .sigmoid, .fin _ 0 _ => some (half32, 0)
  | .gelu, .inf neg => some (if neg then zero32 true else inf32 false, 0)
  | .gelu, .fin neg 0 _ => some (zero32 neg, 0)
  | _, _ => none

/-- A finite number that is the integer n. -/
def asInt (neg : Bool) (m : Nat) (e : Int) : Option Int :=
  let v : Option Nat := if 0 ≤ e then some (m * 2 ^ e.toNat) else if m % 2 ^ (-e).toNat = 0 then some (m / 2 ^ (-e).toNat) else none
  v.map (fun n => if neg then -(n : Int) else n)

/-- The magnitude is a power of two: its exponent. -/
def asPow2 (m : Nat) (e : Int) : Option Int := if m = 2 ^ topBit m then some ((topBit m : Int) + e) else none

/-- The value of a function at a finite input, and its bound of R254, which is 0 where R254 makes the result exact. -/
def fnExact (f : Fn) (neg : Bool) (m : Nat) (e : Int) : Int × Int :=
  let x := fxOf neg m e
  match f with
  | .exp2 =>
    let y := fxExp2 x
    (y, if x % fxOne = 0 ∧ -126 * fxOne ≤ x then 0 else 2 * fxUlp y)
  | .log2 =>
    let y := fxLog2 m e
    (y, if (asPow2 m e).isSome then 0 else if fxOne ≤ 2 * x ∧ x ≤ 2 * fxOne then fxAbs 22 else 2 * fxUlp y)
  | .rsqrt => let y := fxRsqrt x; (y, fxUlp y)
  | .sin => (fxSin x, fxAbs 21)
  | .cos => (fxCos x, fxAbs 21)
  | .tanh => let y := fxTanh x; (y, max (2 * fxUlp y) (fxAbs 22))
  | .sigmoid => (fxSigmoid x, fxAbs 22)
  | .gelu => (fxGelu x, max (fxAbs 20) (fxMul (fxAbs 20) (fxOf false m e)))
  | .rcp | .sqrt => (0, 0)

/-- The value of a pattern; none for an infinity or a NaN. -/
def fxPattern (r : W32) : Option Int :=
  match decode32 r with
  | .fin neg m e => some (fxOf neg m e)
  | _ => none

/-- Bounds on a result that R254 gives beside the error: a range, or the results on either side that a monotonic function does not pass.
They are the exact ones; for rsqrt just above a power of two, the least result of the input after that of the power. -/
def fnRange (f : Fn) (neg : Bool) (y : Int) : Int × Int :=
  match f with
  | .exp2 =>
    let n := topBit y.toNat
    if fxBits - 126 ≤ n then (2 ^ n, 2 ^ (n + 1)) else (0, fxAbs 126)
  | .log2 => (y / fxOne * fxOne, (y / fxOne + 1) * fxOne)
  | .sin | .cos => (-fxOne, fxOne)
  | .tanh => if neg then (-fxOne, 0) else (0, fxOne)
  | .sigmoid => if neg then (0, fxOne / 2) else (fxOne / 2, fxOne)
  | .rsqrt =>
    let k := topBit y.toNat
    (if k < fxBits + 64 then 2 ^ k - 2 ^ (k - 24) else 0, 2 ^ (k + 1))
  | _ => (-2 ^ (fxBits + 128), 2 ^ (fxBits + 128))

/-- The pattern nearest to a value; its sign where it is zero is that of `neg`. -/
def fxRound (y : Int) (neg : Bool) : W32 :=
  BitVec.ofNat 32 (roundTo fFP32 0 false (.fin (if y = 0 then neg else decide (y < 0)) y.natAbs (-(fxBits : Int)))).1

/-- A pattern's place in the order of the numbers; that of both zeros is 2^31. -/
def placeOf (b : W32) : Nat := if b.toNat < 2 ^ 31 then 2 ^ 31 + b.toNat else 2 ^ 31 - b.toNat % 2 ^ 31

/-- The pattern at a place. -/
def ofPlace (n : Nat) : W32 := BitVec.ofNat 32 (if 2 ^ 31 ≤ n then n - 2 ^ 31 else 2 ^ 31 + (2 ^ 31 - n))

/-- The place of the least pattern that is not below a value. -/
def fxCeil (y : Int) : Nat :=
  let n := placeOf (fxRound y false)
  match fxPattern (ofPlace n) with
  | some v => if v < y then n + 1 else n
  | none => n

/-- The place of the greatest finite pattern that is not above a value. -/
def fxFloor (y : Int) : Nat :=
  let n := placeOf (fxRound y false)
  match fxPattern (ofPlace n) with
  | some v => if y < v then n - 1 else n
  | none => n - 1

/-- The free function of Config that an implementation chooses (R253). -/
def fnFree (f : Fn) : W32 → W32 :=
  match f with
  | .exp2 => Config.exp2
  | .log2 => Config.log2
  | .rsqrt => Config.rsqrt
  | .sin => Config.sin
  | .cos => Config.cos
  | .tanh => Config.tanh
  | .sigmoid => Config.sigmoid
  | .gelu => Config.gelu
  | .rcp | .sqrt => fun x => x

/-- The place of the result between the places lo and hi: the chosen one where it lies there and within the bounds of R254, else the
nearest to the value that does. -/
def fnWithin (f : Fn) (b : W32) (lo hi : Nat) (neg : Bool) (m : Nat) (e : Int) : Nat :=
  let t := fnExact f neg m e
  let g := fnRange f neg t.1
  let lo := max lo (fxCeil (max g.1 (t.1 - t.2)))
  let hi := min hi (fxFloor (min g.2 (t.1 + t.2)))
  let v := placeOf (fnFree f b)
  if lo ≤ v ∧ v ≤ hi then v else max lo (min hi (placeOf (fxRound t.1 neg)))

/-- The same for the input at a place; an input that R255 lists has its result there. -/
def fnPlace (f : Fn) (n lo hi : Nat) : Nat :=
  match fnSpecial f (decode32 (ofPlace n)), decode32 (ofPlace n) with
  | some r, _ => placeOf r.1
  | none, .fin neg m e => fnWithin f (ofPlace n) lo hi neg m e
  | none, _ => lo

/-- A monotonic function at place n, an input between the places a and b, when the results there lie between lo and hi: the result at the
middle bounds those of the half that holds n. -/
def fnDescend (f : Fn) (n : Nat) : Nat → Nat → Nat → Nat → Nat → Nat
  | 0, _, _, lo, _ => lo
  | k + 1, a, b, lo, hi =>
    let mid := (a + b) / 2
    let r := fnPlace f mid lo hi
    let (lo', hi') := if decide (n < mid) != (f == .rsqrt) then (lo, r) else (r, hi)
    if n = mid then r
    else if n < mid then fnDescend f n k a (mid - 1) lo' hi'
    else fnDescend f n k (mid + 1) b lo' hi'

/-- The places of the inputs over which a function is monotonic (R254): below 128 for exp2, positive for log2 and rsqrt, else all finite. -/
def fnDomain (f : Fn) : Option (Nat × Nat) :=
  let last := placeOf (inf32 false) - 1
  match f with
  | .exp2 => some (placeOf (inf32 true) + 1, placeOf 0x43000000 - 1)
  | .log2 | .rsqrt => some (2 ^ 31 + 1, last)
  | .tanh | .sigmoid => some (placeOf (inf32 true) + 1, last)
  | .rcp | .sqrt | .sin | .cos | .gelu => none

/-- The chosen function, held to the bounds and the order of R254. A choice that meets them is unchanged; an exact result stands, and none
before it passes it (fnRange). -/
def fnChosen (f : Fn) (b : W32) (neg : Bool) (m : Nat) (e : Int) : W32 :=
  let top := placeOf (inf32 false)
  let n := match fnDomain f with
    | some (lo, hi) => if (fnExact f neg m e).2 = 0 then fnWithin f b 0 top neg m e else fnDescend f (placeOf b) 33 lo hi 0 top
    | none => fnWithin f b 0 top neg m e
  if n = 2 ^ 31 then (if (fnFree f b).toNat % 2 ^ 31 = 0 then fnFree f b else zero32 neg) else ofPlace n

/-- The flags of an inexact result (R255). -/
def fnFlags (inexact tiny : Bool) : W64 := if inexact then (if tiny then fNX ||| fUF else fNX) else 0

/-- The value of a function at a finite, non-zero input that R255 does not list. -/
def fnFinite (f : Fn) (b : W32) (neg : Bool) (m : Nat) (e : Int) : W32 × W64 :=
  let mag := b.toNat % 2 ^ 31
  let r := fnChosen f b neg m e
  match f with
  | .exp2 =>
    if !neg && !magLt m e 128 0 then (inf32 false, fOF ||| fNX)
    else
      match asInt neg m e with
      | some n => (r, fnFlags (decide (n < -126) && !(decide (-149 ≤ n) && r.toNat == 2 ^ (n + 149).toNat)) true)
      | none => (r, fnFlags true (neg && magLt 126 0 m e))
  | .log2 => (r, fnFlags (asPow2 m e).isNone false)
  | .rcp =>
    -- 2^60 / m keeps more than 25 bits of quotient
    let k := topBit m + 30
    let r := roundTo fFP32 0 false (.fin neg (2 ^ k / m) (-(k : Int) - e)) (2 ^ k % m != 0)
    (BitVec.ofNat 32 r.1, r.2)
  | .sqrt =>
    let k : Int := 60 + (e % 2)
    let x := m * 2 ^ k.toNat
    let r0 := isqrt x 44 0
    let r := roundTo fFP32 0 false (.fin false r0 ((e - k) / 2)) (r0 * r0 != x)
    (BitVec.ofNat 32 r.1, r.2)
  | .rsqrt =>
    let exact := match decode32 r with
      | .fin _ n g => decide (n * n * m = 2 ^ topBit (n * n * m)) && ((topBit (n * n * m) : Int) + 2 * g + e == 0)
      | _ => false
    (r, fnFlags (!exact) false)
  | .sin => (r, fnFlags true (decide (mag ≤ 0x00800000)))
  | .cos => (r, fnFlags true false)
  | .tanh => (r, fnFlags true (decide (mag ≤ 0x00800000)))
  | .sigmoid => (r, fnFlags true (neg && decide (0x42AEAC50 ≤ mag)))
  | .gelu =>
    (r, fnFlags true (decide (mag < 0x01000000) || (neg && mag == 0x01000000) || (neg && decide (0x41219C36 ≤ mag))))

/-- The FP32 result of a special function and its flags (R253, R255). -/
def fnEval (f : Fn) (b : W32) : W32 × W64 :=
  match fnSpecial f (decode32 b) with
  | some r => r
  | none =>
    match decode32 b with
    | .fin neg m e => fnFinite f b neg m e
    | _ => (nan32, 0)

end Sys2Proof.Machine
end

