-- ==== Sys2Proof/Machine/Operands.lean ====
section
/-!
DEFINITION. Lane operands: every operand code as a source and as a destination (R34 to R39), guards (R40), latches (R43, R211),
the checks of R50, and the frame in which a lane word issues (R53).
-/
namespace Sys2Proof.Machine

/-- Width in bits of a type code (R34); 0 for untyped. -/
def tyW (t : Nat) : Nat :=
  match t with
  | 0 | 4 | 11 | 12 => 8
  | 1 | 5 | 9 | 10 => 16
  | 2 | 6 | 8 => 32
  | 3 | 7 => 64
  | 13 | 14 => 4
  | _ => 0

/-- The float-constant table (R39), entries 0 to 31. -/
def fcTable : List Nat :=
  [0x00000000, 0x80000000, 0x3F000000, 0x3E800000, 0x3E000000, 0x3EAAAAAB, 0x3FC00000, 0x40490FDB,
   0x3FC90FDB, 0x40C90FDB, 0x3EA2F983, 0x402DF854, 0x3F317218, 0x3FB8AA3B, 0x40135D8E, 0x40549A78,
   0x3E9A209B, 0x3FB504F3, 0x3F3504F3, 0x3F4C422A, 0x43E00000, 0x47600000, 0x477FE000, 0x7F7FFFFF,
   0x00800000, 0x34000000, 0x7F800000, 0xFF800000, 0x7FC00000, 0x3ECC422A, 0x3D372713, 0x3EAB0000]

/-- A table entry at a type: floats round to nearest-even, E4M3 to at most 448 (R39). -/
def fcRead (i t : Nat) : Nat :=
  let b := fcTable.getD i 0
  if isFloat t then
    match decodeF fFP32 b with
    | .fin neg m e => (roundTo (fmtOf t) 0 (t == 11) (.fin neg m e)).1
    | x => (roundTo (fmtOf t) 0 false x).1
  else b % 2 ^ tyW t

/-- An integer constant or special at a type (R38). A special beyond the range of a narrow float type becomes an infinity, or a NaN in E4M3
(log 105). -/
def intRead (i : Int) (t : Nat) : Nat :=
  if isFloat t then (roundTo (fmtOf t) 0 false (intNum i)).1 else (i % 2 ^ tyW t).toNat

/-- What a lane word reads: the warp, its block, its pipe's latches, the crew index and the point's linear index. -/
structure Lcx where
  w : Warp
  b : Block
  latch : Tab (BitVec 4096)
  valid : BitVec 8
  cidx : Nat
  linear : Nat
  deriving DecidableEq, Repr

/-- Lane k of a latch; an invalid latch reads 0 (R43). -/
def Lcx.latchLane (c : Lcx) (i k : Nat) : Nat :=
  if c.valid.getLsbD i then (c.latch.getD i 0).toNat / 2 ^ (64 * k) % 2 ^ 64 else 0

/-- read(code, type, k) of R53: the operand's pattern at the type's width. -/
def Lcx.read (c : Lcx) (code t k : Nat) : Nat :=
  if code < 1536 then
    let lo := (laneGet (c.w.v code) k).toNat
    if tyW t = 64 then lo + 2 ^ 32 * (laneGet (c.w.v (code + 1)) k).toNat else lo % 2 ^ tyW t
  else if code < 1544 then c.latchLane (code - 1536) k % 2 ^ tyW t
  else if code < 1568 then intRead (if (c.w.p (code - 1544)).getLsbD k then 1 else 0) t
  else if code < 1664 then
    (if code = 1600 then 0 else (c.b.sregs.getD (code - 1600) 0).toNat) % 2 ^ tyW t
  else if code < 1728 then intRead ((code : Int) - 1696) t
  else if code < 1760 then fcRead (code - 1728) t
  else if code = 1760 then intRead k t
  else if code = 1761 then intRead 64 t
  else if code = 1762 then intRead c.cidx t
  else if code = 1763 then intRead c.linear t
  else 0

/-- A predicate operand in lane k. -/
def Lcx.pred (c : Lcx) (code k : Nat) : Bool := (c.w.p (code - 1544)).getLsbD k

/-! ### Checks -/

/-- How an opcode uses an operand field. -/
inductive Role where
  | unused
  | src (t : Nat)
  /-- a source that must be a predicate (R62) -/
  | psrc
  | dst (t : Nat)
  | pdst
  /-- a block of n consecutive registers, from a multiple of m -/
  | block (n m : Nat) (write : Bool)
  deriving DecidableEq, Repr

/-- A used field passes R36, R35 and R37; `valloc` is the snapshot's. -/
def Role.ok (r : Role) (valloc code : Nat) : Bool :=
  let reg := fun (t : Nat) => if tyW t = 64 then code % 2 == 0 && code + 1 < 32 * valloc else code < 32 * valloc
  match r with
  | .unused => true
  | .src t =>
    if code < 1536 then reg t
    else (code < 1568) || (1600 ≤ code && code < 1764)
  | .psrc => 1544 ≤ code && code < 1568
  | .dst t => code < 1536 && reg t
  | .pdst => 1544 ≤ code && code < 1568
  | .block n m write =>
    if code < 1536 then code % m == 0 && code + n ≤ 32 * valloc
    else !write && n == 1 && (code < 1568 || (1600 ≤ code && code < 1764))

/-- Register codes a field touches, for interlocks (R246). -/
def Role.regs (r : Role) (code : Nat) : List Nat :=
  match r with
  | .unused => []
  | .src t => if code < 1536 then (if tyW t = 64 then [code, code + 1] else [code]) else if code < 1568 then [code] else []
  | .psrc | .pdst => [code]
  | .dst t => if code < 1536 then (if tyW t = 64 then [code, code + 1] else [code]) else []
  | .block n _ _ => if code < 1536 then (List.range n).map (· + code) else []

/-- The opcode's row of R61. -/
structure LaneRow where
  /-- the type code is admitted (step 2) -/
  types : Nat → Bool
  /-- the modifier is listed for the type (step 3) -/
  mods : Nat → Nat → Bool
  memory : Bool
  d : Role
  s0 : Role
  s1 : Role
  s2 : Role
  s3 : Role

/-- A guard field names a predicate or "always" (R40). -/
def guardOk (g : BitVec 6) : Bool := let i := g.toNat % 32; i < 24 || i == 31

/-- The destination's role: with no write-back the field must hold none (R45). -/
def LaneRow.dRole (r : LaneRow) (f : LaneWord) : Role := if f.nowb = 1 then .unused else r.d

def unusedOk (r : Role) (code : BitVec 11) : Bool := r != .unused || code == 2047#11

/-- The checks of R50 in order, with the failing fields of R386. `s3free` marks a conversion, whose source-3
field holds a type; `s3ok` is the rule for that type and for pairs. -/
def laneCheck (r : LaneRow) (f : LaneWord) (valloc : Nat) (s3ok s3free : Bool) : Option (Cls × Nat) :=
  let firstFail := fun (l : List (Bool × Cls × Nat)) => (l.find? (fun e => !e.1)).map (·.2)
  firstFail
    [(r.types f.ty.toNat, .illInst, 1),
     ((if r.memory then f.hint.toNat < 7 else f.hint == 0#3) && r.mods f.ty.toNat f.mdf.toNat &&
        unusedOk (r.dRole f) f.dst && unusedOk r.s0 f.s0 && unusedOk r.s1 f.s1 && unusedOk r.s2 f.s2 &&
        (s3free || unusedOk r.s3 f.s3) && s3ok, .illInst, 2),
     ((r.dRole f).ok valloc f.dst.toNat, .illOpnd, 3),
     (r.s0.ok valloc f.s0.toNat, .illOpnd, 4),
     (r.s1.ok valloc f.s1.toNat, .illOpnd, 5),
     (r.s2.ok valloc f.s2.toNat, .illOpnd, 6),
     (r.s3.ok valloc f.s3.toNat, .illOpnd, 7),
     (guardOk f.gA, .illOpnd, 8),
     (guardOk f.gB, .illOpnd, 9)]

def LaneRow.regs (r : LaneRow) (f : LaneWord) : List Nat :=
  (r.dRole f).regs f.dst.toNat ++ r.s0.regs f.s0.toNat ++ r.s1.regs f.s1.toNat ++ r.s2.regs f.s2.toNat ++ r.s3.regs f.s3.toNat ++
    (if f.gA.toNat % 32 < 24 then [1544 + f.gA.toNat % 32] else []) ++ (if f.gB.toNat % 32 < 24 then [1544 + f.gB.toNat % 32] else [])

/-- The sources' latch codes. -/
def LaneRow.latches (r : LaneRow) (f : LaneWord) : List Nat :=
  [(r.s0, f.s0), (r.s1, f.s1), (r.s2, f.s2), (r.s3, f.s3)].filterMap (fun e =>
    match e.1 with
    | .src _ | .block _ _ false => if 1536 ≤ e.2.toNat && e.2.toNat < 1544 then some (e.2.toNat - 1536) else none
    | _ => none)

/-! ### Guards (R40) -/

def allLanes : Mask := BitVec.allOnes 64

def guardMask (w : Warp) (g : BitVec 6) : Mask :=
  let m := if g.toNat % 32 = 31 then allLanes else w.p (g.toNat % 32)
  if g.getLsbD 5 then ~~~ m else m

/-- The lanes below a count. -/
def laneCountMask (n : Nat) : Mask := BitVec.ofNat 64 (2 ^ n - 1)

/-- The lanes in which a word executes (R40). -/
def execMask (w : Warp) (b : Block) (f : LaneWord) : Mask := guardMask w f.gA &&& guardMask w f.gB &&& laneCountMask b.lanes

def lanesOn (m : Mask) : List Nat := (List.range 64).filter (fun k => m.getLsbD k)

/-! ### Results -/

/-- A result as its destination register image holds it (R35, R211). -/
def image (t v : Nat) : Nat :=
  match t with
  | 0 => ((BitVec.ofNat 8 v).signExtend 32).toNat
  | 1 => ((BitVec.ofNat 16 v).signExtend 32).toNat
  | _ => v % 2 ^ (if tyW t = 0 then 64 else tyW t)

/-- Merges per-lane values of a field width into a register-like number. -/
def mergeLanes (bitsPer : Nat) (old : Nat) : List (Nat × Nat) → Nat
  | [] => old
  | (k, v) :: r =>
    let o := mergeLanes bitsPer old r
    let cur := o / 2 ^ (bitsPer * k) % 2 ^ bitsPer
    o - cur * 2 ^ (bitsPer * k) + (v % 2 ^ bitsPer) * 2 ^ (bitsPer * k)

/-- Writes a 32-bit value per lane into a vector register. -/
def Warp.setV (w : Warp) (r : Nat) (l : List (Nat × Nat)) : Warp :=
  if l.isEmpty then w else { w with vregs := w.vregs.set r (BitVec.ofNat 2048 (mergeLanes 32 (w.v r).toNat l)) }

/-- Writes a value of a type per lane, a pair for 64-bit types (R35). -/
def Warp.setVT (w : Warp) (t r : Nat) (l : List (Nat × Nat)) : Warp :=
  if tyW t = 64 then (w.setV r (l.map (fun e => (e.1, e.2 % 2 ^ 32)))).setV (r + 1) (l.map (fun e => (e.1, e.2 / 2 ^ 32)))
  else w.setV r (l.map (fun e => (e.1, image t e.2)))

/-- Writes a predicate in the listed lanes. -/
def Warp.setP (w : Warp) (r : Nat) (l : List (Nat × Bool)) : Warp :=
  if l.isEmpty then w
  else { w with preds := w.preds.set r (BitVec.ofNat 64 (mergeLanes 1 (w.p r).toNat (l.map (fun e => (e.1, if e.2 then 1 else 0))))) }

/-- Writes a latch in the listed lanes; other lanes keep their value, or read 0 if it was invalid (R43). -/
def latchWrite (d : Dev) (c p sel : Nat) (l : List (Nat × Nat)) : Dev :=
  let x := d.pipe c p
  let old := if x.valid.getLsbD sel then (x.latch.getD sel 0).toNat else 0
  d.setPipe c p { x with
    latch := x.latch.set sel (BitVec.ofNat 4096 (mergeLanes 64 old l))
    valid := x.valid ||| BitVec.ofNat 8 (2 ^ sel) }

/-! ### The frame of a lane word -/

/-- The meaning of a lane word: f acts on the issuing warp and the block at the head of its lane queue (R213). -/
def laneWord (s : State) (f : Dev → Nat → Warp → Block → Dev) : Host.Outcome State Fault Refusal :=
  match s.dev.actor with
  | .lane k =>
    match s.dev.warps.get? k with
    | some w =>
      match w.queue with
      | b :: _ => .next { s with dev := f s.dev k w b }
      | [] => .fault .noIssuer
    | none => .fault .noIssuer
  | _ => .fault .noIssuer

/-- Address of the lane word at the issue point (R213). -/
def laneAddr (w : Warp) (b : Block) : Nat := b.base + 12 * w.lword

/-- A trap of END fate at the lane word (R385, R386). -/
def laneTrap (d : Dev) (k : Nat) (w : Warp) (b : Block) (cls : Cls) (lmask : Mask) (aux : W64) : Dev :=
  takeTrap d k w .lane cls (laneAddr w b) b.base lmask aux []

/-- The lane word cannot issue yet: the stream is no candidate until it can (R246, R360). -/
def laneStall (d : Dev) (k : Nat) (w : Warp) : Dev :=
  d.setWarp k { w with lready := d.clock + 1, lpark := if w.lpark = .run then .again else w.lpark }

/-- What lane code reads in a warp. -/
def lcx (d : Dev) (w : Warp) (b : Block) : Lcx :=
  let p := d.pipe w.cluster w.pipe
  let c := d.crewOf w
  ⟨w, b, p.latch, p.valid, (c.map (·.cidx)).getD 0, ((c.bind (·.point)).map (·.linear)).getD 0 % 2 ^ 32⟩

/-- A lane stream that parks leaves its pipe, whose latches are invalid (R22, R81, R186). -/
def leavePipe (d : Dev) (w : Warp) : Dev :=
  let d := dropLatches d w.cluster w.pipe
  d.setPipe w.cluster w.pipe { d.pipe w.cluster w.pipe with cur := none }

/-- The issue point moves past the word, and the next lane word waits for its stall count; at a block boundary or a yield the
latches are invalid and the pipe may switch, after a block's last word without a yield only when its stall count has passed (R22, R43, R46,
R47, R363). -/
def laneNext (d : Dev) (k : Nat) (w : Warp) (b : Block) (f : LaneWord) : Dev :=
  let last := decide (b.count ≤ w.lword + 1)
  let yld := f.yld == 1#1
  let w := { w with
    queue := if last then w.queue.drop 1 else w.queue
    lword := if last then 0 else w.lword + 1
    blocks := if last then w.blocks + 1 else w.blocks
    lpark := .run, xl := [], rl := Reads.empty, lready := d.clock + 1 + f.stall.toNat }
  let d := d.setWarp k w
  if last || yld then
    let d := dropLatches d w.cluster w.pipe
    d.setPipe w.cluster w.pipe { d.pipe w.cluster w.pipe with cur := none, hold := if yld then 0 else d.clock + 1 + f.stall.toNat }
  else d.setPipe w.cluster w.pipe { d.pipe w.cluster w.pipe with cur := some k }

/-- At a replay the word's own registers are not a dependence (R81). -/
def Warp.ownAside (w : Warp) : Warp :=
  match w.lpark with
  | .replay _ o _ => { w with pendV := w.pendV.filter (fun x => x.1 != o), acquires := w.acquires.filter (fun x => x.1 != o) }
  | _ => w

/-- The latch that an operation writes when its data return. -/
def OpKind.latch : OpKind → Option Nat
  | .load _ _ l _ => some l
  | .atom _ _ l _ _ => some l
  | .kvx _ l _ _ => some l
  | .ldr _ _ l _ => some l
  | _ => none

/-- A word that writes a latch in some lanes takes them from every earlier word of the warp still to return (R43, R44; log 13). -/
def claimLatch (d : Dev) (k sel : Nat) (lanes : Mask) : Dev :=
  { d with ops := d.ops.map (fun e =>
      if e.2.warp = k ∧ e.2.kind.latch = some sel then (e.1, { e.2 with stale := e.2.stale ||| lanes }) else e) }

/-- The mask of a list of lanes. -/
def maskOf (l : List Nat) : Mask := l.foldl (fun m k => m ||| BitVec.ofNat 64 (2 ^ k)) 0

/-- A checked lane word: the checks of R50, then the interlocks of R246, then f; a read of an invalid latch in an executing
word sets LATCHLOST (R43). -/
def laneChecked (r : LaneRow) (f : LaneWord) (s3ok s3free : Bool) (g : Dev → Nat → Warp → Block → Dev) : Dev → Nat → Warp → Block → Dev :=
  fun d k w b =>
    match laneCheck r f b.valloc s3ok s3free with
    | some c => laneTrap d k w b c.1 0 (BitVec.ofNat 64 c.2)
    | none =>
      if (w.ownAside).pendingV (r.regs f) then laneStall d k w
      else
        let lost := (r.latches f).any (fun i => !(d.pipe w.cluster w.pipe).valid.getLsbD i) && execMask w b f != 0
        g d k (if lost then w.orFlags fLATCH else w) b

/-- The results of a word that computes per lane: register, latch, flags (R53). `t` is the result's type; a predicate
destination has pred = true. -/
def finish (f : LaneWord) (t : Nat) (pred : Bool) (res : List (Nat × Nat)) (flags : W64) (d : Dev) (k : Nat) (w : Warp) (b : Block) : Dev :=
  let w := w.orFlags flags
  let w := if f.nowb = 1 then w
    else if pred then w.setP (f.dst.toNat - 1544) (res.map (fun e => (e.1, e.2 % 2 == 1)))
    else w.setVT t f.dst.toNat res
  let d := claimLatch d k f.lsel.toNat (maskOf (res.map (·.1)))
  let d := latchWrite d w.cluster w.pipe f.lsel.toNat (res.map (fun e => (e.1, if pred then e.2 % 2 else image t e.2)))
  laneNext d k w b f

/-- A word that computes each executing lane on its own: the result pattern and its flags (R53). -/
def laneCompute (r : LaneRow) (f : LaneWord) (t : Nat) (pred : Bool) (g : Lcx → Nat → Nat × W64) : Dev → Nat → Warp → Block → Dev :=
  laneChecked r f true false (fun d k w b =>
    let c := lcx d w b
    let res := (lanesOn (execMask w b f)).map (fun i => (i, g c i))
    finish f t pred (res.map (fun e => (e.1, e.2.1))) (res.foldl (fun a e => a ||| e.2.2) 0) d k w b)

end Sys2Proof.Machine
end

