-- ==== Sys2Proof/Machine/LaneArith.lean ====
section
/-!
DEFINITION. Lane words that compute each lane on its own: integer (R247, R248), floating-point (R249, R250), comparison,
selection and moves (R251, R252), special functions (R253 to R256), conversions (R257 to R260), predicate logic (R261).
-/
namespace Sys2Proof.Machine

def tyInt (t : Nat) : Bool := t < 8
/-- The F types of R61. -/
def tyF (t : Nat) : Bool := 8 ≤ t && t ≤ 10
def tyNum (t : Nat) : Bool := t ≤ 10
def tyMove (t : Nat) : Bool := t ≤ 12
def tyBits (t : Nat) : Bool := t == 6 || t == 7
def mod0 (_ m : Nat) : Bool := m == 0

/-- A row with a destination and one, two or three sources of the word's type. -/
def row1 (types : Nat → Bool) (t : Nat) : LaneRow :=
  ⟨types, mod0, false, .dst t, .src t, .unused, .unused, .unused⟩
def row2 (types : Nat → Bool) (t : Nat) : LaneRow :=
  ⟨types, mod0, false, .dst t, .src t, .src t, .unused, .unused⟩
def row3 (types : Nat → Bool) (t : Nat) : LaneRow :=
  ⟨types, mod0, false, .dst t, .src t, .src t, .src t, .unused⟩

/-- A pattern at an integer type as a number (R217, R247). -/
def valT (t x : Nat) : Int := if t < 4 then (BitVec.ofNat (tyW t) x).toInt else (x : Int)

/-- An integer result modulo 2^W (R243). -/
def wrapT (t : Nat) (r : Int) : Nat := (r % 2 ^ tyW t).toNat

def numT (t x : Nat) : Num := decodeF (fmtOf t) x

/-- An exact result in its own format (R244). -/
def exactT (t : Nat) (x : Num) : Nat := (roundTo (fmtOf t) 0 false x).1

/-- Rounding mode "down" of the block's control (R249). -/
def downT (nmode : W64) (t : Nat) : Bool := t != 8 && (control nmode t).1 == 2

/-- Rounds an exact result and joins its flags (R244). -/
def rounded (nmode : W64) (t : Nat) (x : Num × W64) : Nat × W64 :=
  let r := roundType nmode t x.1
  (r.1, x.2 ||| r.2)

/-! ### Sums and products, shared by integer and float types -/

def addT (nmode : W64) (t x y : Nat) : Nat × W64 :=
  if isFloat t then rounded nmode t (addNum (downT nmode t) (numT t x) (numT t y))
  else (wrapT t (valT t x + valT t y), 0)

def subT (nmode : W64) (t x y : Nat) : Nat × W64 :=
  if isFloat t then rounded nmode t (addNum (downT nmode t) (numT t x) (negNum (numT t y)))
  else (wrapT t (valT t x - valT t y), 0)

def mulT (nmode : W64) (t x y : Nat) : Nat × W64 :=
  if isFloat t then rounded nmode t (mulNum (numT t x) (numT t y))
  else (wrapT t (valT t x * valT t y), 0)

/-- x × y + z with one rounding; a NaN operand sets no flag (R249). -/
def fmaT (nmode : W64) (t x y z : Nat) : Nat × W64 :=
  if isNan (numT t z) then (exactT t .nan, 0)
  else
    let p := mulNum (numT t x) (numT t y)
    let s := addNum (downT nmode t) p.1 (numT t z)
    rounded nmode t (s.1, p.2 ||| s.2)

def minT (t x y : Nat) : Nat :=
  if isFloat t then exactT t (minNum (numT t x) (numT t y)) else wrapT t (min (valT t x) (valT t y))

def maxT (t x y : Nat) : Nat :=
  if isFloat t then exactT t (maxNum (numT t x) (numT t y)) else wrapT t (max (valT t x) (valT t y))

def absT (t x : Nat) : Nat := if isFloat t then exactT t (absNum (numT t x)) else wrapT t ((valT t x).natAbs : Int)
def negT (t x : Nat) : Nat := if isFloat t then exactT t (negNum (numT t x)) else wrapT t (-valT t x)

/-- A shift amount: the low log2 W bits (R247). -/
def amtT (t y : Nat) : Nat := y % tyW t

/-- A word of one, two or three sources of its type. -/
def word1 (types : Nat → Bool) (f : LaneWord) (g : W64 → Nat → Nat → Nat × W64) : Dev → Nat → Warp → Block → Dev :=
  let t := f.ty.toNat
  laneCompute (row1 types t) f t false (fun c k => g c.b.nmode t (c.read f.s0.toNat t k))
def word2 (types : Nat → Bool) (f : LaneWord) (g : W64 → Nat → Nat → Nat → Nat × W64) : Dev → Nat → Warp → Block → Dev :=
  let t := f.ty.toNat
  laneCompute (row2 types t) f t false (fun c k => g c.b.nmode t (c.read f.s0.toNat t k) (c.read f.s1.toNat t k))
def word3 (types : Nat → Bool) (f : LaneWord) (g : W64 → Nat → Nat → Nat → Nat → Nat × W64) : Dev → Nat → Warp → Block → Dev :=
  let t := f.ty.toNat
  laneCompute (row3 types t) f t false (fun c k =>
    g c.b.nmode t (c.read f.s0.toNat t k) (c.read f.s1.toNat t k) (c.read f.s2.toNat t k))

/-! ### Integer and float words -/

/-- NOP (R243). -/
def execLaneNop (f : LaneWord) (s : State) : Host.Outcome State Fault Refusal :=
  laneWord s (laneChecked ⟨fun t => t == 15, mod0, false, .unused, .unused, .unused, .unused, .unused⟩ f true false
    (fun d k w b => laneNext d k w b f))

/-- MOV (R252). -/
def execLaneMov (f : LaneWord) (s : State) : Host.Outcome State Fault Refusal :=
  laneWord s (word1 tyMove f (fun _ _ x => (x, 0)))

/-- ADD (R247, R249). -/
def execLaneAdd (f : LaneWord) (s : State) : Host.Outcome State Fault Refusal :=
  laneWord s (word2 tyNum f addT)

/-- SUB (R247, R249). -/
def execLaneSub (f : LaneWord) (s : State) : Host.Outcome State Fault Refusal :=
  laneWord s (word2 tyNum f subT)

/-- MUL (R247, R249). -/
def execLaneMul (f : LaneWord) (s : State) : Host.Outcome State Fault Refusal :=
  laneWord s (word2 tyNum f mulT)

/-- MULHI (R247). -/
def execLaneMulhi (f : LaneWord) (s : State) : Host.Outcome State Fault Refusal :=
  laneWord s (word2 (fun t => t == 2 || t == 3 || t == 6 || t == 7) f
    (fun _ t x y => (wrapT t (valT t x * valT t y / 2 ^ tyW t), 0)))

/-- MAD (R247). -/
def execLaneMad (f : LaneWord) (s : State) : Host.Outcome State Fault Refusal :=
  laneWord s (word3 tyInt f (fun _ t x y z => (wrapT t (valT t x * valT t y + valT t z), 0)))

/-- MIN (R247, R249). -/
def execLaneMin (f : LaneWord) (s : State) : Host.Outcome State Fault Refusal :=
  laneWord s (word2 tyNum f (fun _ t x y => (minT t x y, 0)))

/-- MAX (R247, R249). -/
def execLaneMax (f : LaneWord) (s : State) : Host.Outcome State Fault Refusal :=
  laneWord s (word2 tyNum f (fun _ t x y => (maxT t x y, 0)))

/-- ABS (R247, R248, R249). -/
def execLaneAbs (f : LaneWord) (s : State) : Host.Outcome State Fault Refusal :=
  laneWord s (word1 (fun t => decide (t < 4) || tyF t) f (fun _ t x => (absT t x, 0)))

/-- NEG (R247, R248, R249). -/
def execLaneNeg (f : LaneWord) (s : State) : Host.Outcome State Fault Refusal :=
  laneWord s (word1 (fun t => decide (t < 4) || tyF t) f (fun _ t x => (negT t x, 0)))

/-- SEL (R252). -/
def execLaneSel (f : LaneWord) (s : State) : Host.Outcome State Fault Refusal :=
  laneWord s (laneCompute ⟨tyMove, mod0, false, .dst f.ty.toNat, .src f.ty.toNat, .src f.ty.toNat, .psrc, .unused⟩ f f.ty.toNat false
    (fun c k => (c.read (if c.pred f.s2.toNat k then f.s0.toNat else f.s1.toNat) f.ty.toNat k, 0)))

/-- AND (R247, R248). -/
def execLaneAnd (f : LaneWord) (s : State) : Host.Outcome State Fault Refusal :=
  laneWord s (word2 tyBits f (fun _ _ x y => (x &&& y, 0)))

/-- OR (R247, R248). -/
def execLaneOr (f : LaneWord) (s : State) : Host.Outcome State Fault Refusal :=
  laneWord s (word2 tyBits f (fun _ _ x y => (x ||| y, 0)))

/-- XOR (R247, R248). -/
def execLaneXor (f : LaneWord) (s : State) : Host.Outcome State Fault Refusal :=
  laneWord s (word2 tyBits f (fun _ _ x y => (x ^^^ y, 0)))

/-- SHL (R247, R248). -/
def execLaneShl (f : LaneWord) (s : State) : Host.Outcome State Fault Refusal :=
  laneWord s (word2 tyBits f (fun _ t x y => (x * 2 ^ amtT t y % 2 ^ tyW t, 0)))

/-- SHR (R247, R248). -/
def execLaneShr (f : LaneWord) (s : State) : Host.Outcome State Fault Refusal :=
  laneWord s (word2 tyBits f (fun _ t x y => (x / 2 ^ amtT t y, 0)))

/-- SRA (R247, R248). -/
def execLaneSra (f : LaneWord) (s : State) : Host.Outcome State Fault Refusal :=
  laneWord s (word2 tyBits f (fun _ t x y => (wrapT t ((BitVec.ofNat (tyW t) x).toInt / 2 ^ amtT t y), 0)))

/-- NOT (R247). -/
def execLaneNot (f : LaneWord) (s : State) : Host.Outcome State Fault Refusal :=
  laneWord s (word1 tyBits f (fun _ t x => (2 ^ tyW t - 1 - x, 0)))

/-- POPC (R247). -/
def execLanePopc (f : LaneWord) (s : State) : Host.Outcome State Fault Refusal :=
  laneWord s (word1 tyBits f (fun _ t x => (popCount x (tyW t), 0)))

/-- CLZ (R247). -/
def execLaneClz (f : LaneWord) (s : State) : Host.Outcome State Fault Refusal :=
  laneWord s (word1 tyBits f (fun _ t x => (leadZeros x (tyW t), 0)))

/-- A condition of R251 on two numbers. -/
def condNum (c : Nat) (x y : Num) : Bool :=
  if isNan x || isNan y then c == 1 || c == 6
  else match c with
    | 0 => !numLt x y && !numLt y x
    | 1 => numLt x y || numLt y x
    | 2 => numLt x y
    | 3 => !numLt y x
    | 4 => numLt y x
    | 5 => !numLt x y
    | 6 => false
    | _ => true

def condT (c t x y : Nat) : Bool := if isFloat t then condNum c (numT t x) (numT t y) else condInt c (valT t x) (valT t y)

/-- CMP (R251). -/
def execLaneCmp (f : LaneWord) (s : State) : Host.Outcome State Fault Refusal :=
  laneWord s (laneCompute ⟨tyNum, fun t m => m < 6 || tyF t, false, .pdst, .src f.ty.toNat, .src f.ty.toNat, .unused, .unused⟩ f f.ty.toNat true
    (fun c k => (if condT f.mdf.toNat f.ty.toNat (c.read f.s0.toNat f.ty.toNat k) (c.read f.s1.toNat f.ty.toNat k) then 1 else 0, 0)))

/-- FMA (R249). -/
def execFma (f : LaneWord) (s : State) : Host.Outcome State Fault Refusal :=
  laneWord s (word3 tyF f fmaT)

/-- rndi of R250 on a number. -/
def rndNum (rm : Nat) : Num → Num
  | .fin neg m e => .fin neg (roundInt rm neg m e).1 0
  | x => x

/-- RNDI (R250). -/
def execRndi (f : LaneWord) (s : State) : Host.Outcome State Fault Refusal :=
  laneWord s (laneCompute ⟨tyF, fun _ m => m < 4, false, .dst f.ty.toNat, .src f.ty.toNat, .unused, .unused, .unused⟩ f f.ty.toNat false
    (fun c k => (exactT f.ty.toNat (rndNum f.mdf.toNat (numT f.ty.toNat (c.read f.s0.toNat f.ty.toNat k))), 0)))

/-! ### Special functions -/

/-- A function at a type: the FP32 result, rounded once more for the narrower types (R253). -/
def fnT (fn : Fn) (nmode : W64) (t x : Nat) : Nat × W64 :=
  let r := fnEval fn (BitVec.ofNat 32 (exactT 8 (numT t x)))
  if t = 8 then (r.1.toNat, r.2) else rounded nmode t (decode32 r.1, r.2)

/-- The special-function lanes are free in this clock (R256). -/
def sfuFree (d : Dev) (c : Nat) : Bool := (d.cluster c).sfu / 4 != d.clock + 1

/-- The warp holds its crew's token (R302). -/
def holdsToken (d : Dev) (k : Nat) : Bool :=
  match d.warps.get? k with
  | some w => (d.crewOf w).map (·.token) == some w.wcrew
  | none => false

/-- The pipes whose words ask for the special-function lanes in this clock, pipe p's of warp k among them (R256, R363; lookSfu). -/
def sfuAsks (d : Dev) (c p k : Nat) : List (Nat × Nat) :=
  (List.range 4).filterMap (fun q => if q = p then some (q, k) else (d.pipe c q).sfuq.map (fun k => (q, k)))

/-- The pipe that gets the lanes: a token holder's word goes first, and otherwise the pipes are taken in turn, from the pipe after the one
last granted (R256, R302, R363). -/
def sfuWinner (d : Dev) (c : Nat) (l : List (Nat × Nat)) : Option Nat :=
  let held := l.filter (fun e => holdsToken d e.2)
  let l := if held.isEmpty then l else held
  ((List.range 4).map (fun i => ((d.cluster c).sfu + 1 + i) % 4)).find? (fun p => l.any (fun e => e.1 == p))

/-- Pipe p of warp k gets the special-function lanes in this clock. -/
def sfuGranted (d : Dev) (c p k : Nat) : Bool := sfuFree d c && sfuWinner d c (sfuAsks d c p k) == some p

/-- A special-function word takes the cluster's special-function lanes for one clock, or its pipe holds it to the next (R256). -/
def sfuWord (fn : Fn) (f : LaneWord) : Dev → Nat → Warp → Block → Dev :=
  let t := f.ty.toNat
  laneChecked (row1 tyF t) f true false (fun d k w b =>
    if !sfuGranted d w.cluster w.pipe k then
      d.modWarp k (fun w => { w with lready := d.clock + 1 })
    else
      let d := d.setPipe w.cluster w.pipe { d.pipe w.cluster w.pipe with sfuq := none }
      let c := lcx d w b
      let res := (lanesOn (execMask w b f)).map (fun i => (i, fnT fn b.nmode t (c.read f.s0.toNat t i)))
      let d := d.setCluster w.cluster { d.cluster w.cluster with sfu := 4 * (d.clock + 1) + w.pipe }
      finish f t false (res.map (fun e => (e.1, e.2.1))) (res.foldl (fun a e => a ||| e.2.2) 0) d k w b)

/-- EXP2 (R253 to R255). -/
def execExp2 (f : LaneWord) (s : State) : Host.Outcome State Fault Refusal :=
  laneWord s (sfuWord .exp2 f)

/-- LOG2 (R253 to R255). -/
def execLog2 (f : LaneWord) (s : State) : Host.Outcome State Fault Refusal :=
  laneWord s (sfuWord .log2 f)

/-- RCP (R253 to R255). -/
def execRcp (f : LaneWord) (s : State) : Host.Outcome State Fault Refusal :=
  laneWord s (sfuWord .rcp f)

/-- RSQRT (R253 to R255). -/
def execRsqrt (f : LaneWord) (s : State) : Host.Outcome State Fault Refusal :=
  laneWord s (sfuWord .rsqrt f)

/-- SQRT (R253 to R255). -/
def execSqrt (f : LaneWord) (s : State) : Host.Outcome State Fault Refusal :=
  laneWord s (sfuWord .sqrt f)

/-- SIN (R253 to R255). -/
def execSin (f : LaneWord) (s : State) : Host.Outcome State Fault Refusal :=
  laneWord s (sfuWord .sin f)

/-- COS (R253 to R255). -/
def execCos (f : LaneWord) (s : State) : Host.Outcome State Fault Refusal :=
  laneWord s (sfuWord .cos f)

/-- TANH (R253 to R255). -/
def execTanh (f : LaneWord) (s : State) : Host.Outcome State Fault Refusal :=
  laneWord s (sfuWord .tanh f)

/-- SIGMOID (R253 to R255). -/
def execSigmoid (f : LaneWord) (s : State) : Host.Outcome State Fault Refusal :=
  laneWord s (sfuWord .sigmoid f)

/-- GELU (R253 to R255). -/
def execGelu (f : LaneWord) (s : State) : Host.Outcome State Fault Refusal :=
  laneWord s (sfuWord .gelu f)

/-! ### Conversions -/

/-- The value of a source at type S, with its flag (R259, R260). -/
def cvtSource (s x : Nat) : Num × W64 :=
  if isFloat s then (numT s x, 0)
  else if s = 13 ∨ s = 14 then (intNum (int4 x).1, (int4 x).2)
  else (intNum (valT s x), 0)

/-- Range of an integer destination (R230, R236, R259). -/
def cvtRange (t : Nat) : Int × Int :=
  if 13 ≤ t then (-7, 7)
  else if t < 4 then (-2 ^ (tyW t - 1), 2 ^ (tyW t - 1) - 1)
  else (0, 2 ^ tyW t - 1)

/-- Into an integer format (R236, R259); `nx` says that an inexact value out of the range sets NX beside NV (log 15). -/
def toInteger (nx : Bool) (lo hi : Int) (wd rm : Nat) (sat : Bool) (x : Num) : Nat × W64 :=
  let code := fun (i : Int) => (i % 2 ^ wd).toNat
  let marker := 2 ^ (wd - 1)
  match x with
  | .nan => (if sat then 0 else marker, fNV)
  | .inf neg => (if sat then code (if neg then lo else hi) else marker, fNV)
  | .fin neg m e =>
    let r := roundInt rm neg m e
    let y : Int := if neg then -(r.1 : Int) else r.1
    let fl := if nx && r.2 then fNV ||| fNX else fNV
    if y < lo then (if sat then code lo else marker, fl)
    else if hi < y then (if sat then code hi else marker, fl)
    else (code y, if r.2 then fNX else 0)

/-- The conversion of a value into a destination type (R258, R259). Into a format that has an infinity, R237 rounds an infinity under SAT
and R259 returns it as representable, and out of an integer's range R236 leaves NX clear where R259 sets it: which of them holds is free
(log 15). -/
def cvtInto (nmode : W64) (t : Nat) (x : Num) : Nat × W64 :=
  let c := control nmode t
  if isFloat t then
    match x with
    | .inf neg => if t ≠ 11 ∧ Config.infinityKept then ((fmtOf t).infBits neg, 0) else roundTo (fmtOf t) c.1 c.2 x
    | _ => roundTo (fmtOf t) c.1 c.2 x
  else toInteger Config.rangeInexact (cvtRange t).1 (cvtRange t).2 (tyW t) c.1 c.2 x

/-- The conversion from the type s: an infinity of E5M2 has a wider destination and stays an infinity (R237). -/
def cvtFrom (nmode : W64) (s t : Nat) (x : Num) : Nat × W64 :=
  match x with
  | .inf neg => if s = 12 ∧ 8 ≤ t ∧ t ≤ 10 then ((fmtOf t).infBits neg, 0) else cvtInto nmode t x
  | _ => cvtInto nmode t x

/-- The pairs of R62. -/
def cvtPair (t s : Nat) : Bool :=
  t ≤ 14 && s ≤ 14 && t != s && (t < 13 || tyF s) && (s < 13 || tyF t)

/-- CVT (R257 to R260). -/
def execCvt (f : LaneWord) (s : State) : Host.Outcome State Fault Refusal :=
  laneWord s (let t := f.ty.toNat
    let src := f.s3.toNat % 16
    laneChecked ⟨fun t => t ≤ 14, mod0, false, .dst t, .src src, .unused, .unused, .unused⟩ f
      (decide (f.s3.toNat < 16) && cvtPair t src) true (fun d k w b =>
        let c := lcx d w b
        let res := (lanesOn (execMask w b f)).map (fun i =>
          let x := cvtSource src (c.read f.s0.toNat src i)
          let r := cvtFrom b.nmode src t x.1
          (i, r.1, x.2 ||| r.2))
        finish f t false (res.map (fun e => (e.1, e.2.1))) (res.foldl (fun a e => a ||| e.2.2) 0) d k w b))

/-! ### Predicate logic -/

/-- A predicate-logic word (R261). -/
def predWord (two : Bool) (f : LaneWord) (g : Bool → Bool → Bool) : Dev → Nat → Warp → Block → Dev :=
  laneCompute ⟨fun t => t == 15, mod0, false, .pdst, .psrc, if two then .psrc else .unused, .unused, .unused⟩ f 15 true
    (fun c k => (if g (c.pred f.s0.toNat k) (c.pred f.s1.toNat k) then 1 else 0, 0))

/-- PAND (R261). -/
def execPand (f : LaneWord) (s : State) : Host.Outcome State Fault Refusal :=
  laneWord s (predWord true f (fun x y => x && y))

/-- POR (R261). -/
def execPor (f : LaneWord) (s : State) : Host.Outcome State Fault Refusal :=
  laneWord s (predWord true f (fun x y => x || y))

/-- PXOR (R261). -/
def execPxor (f : LaneWord) (s : State) : Host.Outcome State Fault Refusal :=
  laneWord s (predWord true f (fun x y => x != y))

/-- PANDN (R261). -/
def execPandn (f : LaneWord) (s : State) : Host.Outcome State Fault Refusal :=
  laneWord s (predWord true f (fun x y => x && !y))

/-- PNOT (R261). -/
def execPnot (f : LaneWord) (s : State) : Host.Outcome State Fault Refusal :=
  laneWord s (predWord false f (fun x _ => !x))

end Sys2Proof.Machine
end

