-- ==== Sys2Proof/Machine/Xlate.lean ====
section
/-!
DEFINITION. Address spaces and translation (R65 to R86): windows, page tables, TLBs, walkers, faults and shootdown, and the
meanings of the steps WALK_START, WALK_COMPLETE, PTBASE_WRITE, XINVC_GO and SHOOTDOWN_DONE.
-/
namespace Sys2Proof.Machine

/-! ### Address forms -/

/-- How a 64-bit address is read (R70). -/
inductive AForm where
  | va (a : Nat)
  | tagged (part pa : Nat)
  | bad
  deriving DecidableEq, Repr

def aform (a : W64) : AForm :=
  if bits a 63 48 = 0 then .va a.toNat
  else if bits a 63 60 = 8 ∧ bits a 59 56 = 0 then .tagged (bits a 55 52) (bits a 51 0)
  else .bad

/-! ### Page tables (R71 to R75) -/

/-- Base-2 logarithm of the reach of an entry at a level (R71). -/
def levelShift : Nat → Nat
  | 0 => 16
  | 1 => 25
  | 2 => 30
  | _ => 39

def levelIndex (level va : Nat) : Nat := (va / 2 ^ levelShift level) % (if level = 1 then 32 else 512)

/-- A reserved bit of a valid entry is set, or its form breaks R74. -/
def pteBad (level : Nat) (e : W64) : Bool :=
  bits e 57 52 != 0 || bits e 7 6 != 0 ||
    (if bit e 1 then
      level == 3 || bits e 15 8 != 0 || 2 ≤ bits e 5 4 ||
        (level == 1 && bits e 24 16 != 0) || (level == 2 && bits e 29 16 != 0)
    else level == 0 || bits e 5 2 != 0 || (level != 2 && bits e 11 8 != 0))

/-- A table lies in memory that the partition may read. -/
def tableOk (d : Dev) (p level table : Nat) : Bool := !isOutside table && inWindows d p table (if level = 1 then 256 else 4096)

/-- The address of an entry in its table. -/
def entryAt (va level table : Nat) : Nat := table + 8 * levelIndex level va

/-- A walk from a table at a level, read at one instant (log 12); answers the pointers it passed. -/
def walkFrom (d : Dev) (p va : Nat) : Nat → Nat → List PtrEntry → XRes × List PtrEntry
  | level, table, ptrs =>
    let step := fun (e : W64) (next : Nat → List PtrEntry → XRes × List PtrEntry) =>
      if !bit e 0 then (XRes.fault .notMapped, ptrs)
      else if pteBad level e then (.fault .pteFormat, ptrs)
      else if bit e 1 then
        let base := bits e 51 16 * 65536
        if isOutside base || !inWindows d p base (2 ^ levelShift level) then (.fault .outside, ptrs)
        else (.leaf ⟨base, level, bits e 5 4, bit e 3, bit e 2⟩, ptrs)
      else
        let t := bits e 51 8 * 256
        if isOutside t then (.fault .outside, ptrs)
        else next t (⟨p, level, va / 2 ^ levelShift level, t⟩ :: ptrs)
    if !tableOk d p level table then (.fault .outside, ptrs)
    else
      let e := BitVec.ofNat 64 (devReadN d (entryAt va level table) 8)
      match level with
      | 0 => step e (fun _ q => (.fault .pteFormat, q))
      | l + 1 => step e (fun t q => walkFrom d p va l t q)

/-- Where a walk begins: the level and the table, from a PTBASE value and the cached pointers (R72, R76). -/
def walkTop (p : Nat) (base : W64) (va : Nat) (ptrs : List PtrEntry) : Nat × Nat :=
  let hit := fun l => (ptrs.find? (fun e => e.part = p ∧ e.level = l ∧ e.tag = va / 2 ^ levelShift l)).map (·.table)
  match hit 1, hit 2, hit 3 with
  | some t, _, _ => (0, t)
  | _, some t, _ => (1, t)
  | _, _, some t => (2, t)
  | _, _, _ => (3, bits base 51 12 * 4096)

/-- The whole walk of an address from a PTBASE value and the cached pointers (R71, R72, R76). -/
def walk (d : Dev) (p : Nat) (base : W64) (va : Nat) (ptrs : List PtrEntry) : XRes × List PtrEntry :=
  if !bit base 0 then (.fault .notMapped, [])
  else walkFrom d p va (walkTop p base va ptrs).1 (walkTop p base va ptrs).2 []

/-- The addresses of the entries that the walk reads: one pan read for each level that the cached pointers lack (R76). -/
def walkReads (d : Dev) (p : Nat) (base : W64) (va : Nat) (ptrs : List PtrEntry) : List Nat :=
  if !bit base 0 then []
  else ((walkTop p base va ptrs :: (walk d p base va ptrs).2.map (fun e => (e.level - 1, e.table))).filter
    (fun t => tableOk d p t.1 t.2)).map (fun t => entryAt va t.1 t.2)

/-! ### TLBs (R76) -/

def Leaf.reach (l : Leaf) : Nat := 2 ^ levelShift l.size

def tlbFind (t : List TlbEntry) (p va : Nat) : Option Leaf :=
  (t.find? (fun e => e.part = p ∧ e.va ≤ va ∧ va < e.va + e.leaf.reach)).map (·.leaf)

/-- Adds an entry to a fully associative TLB; the oldest one leaves a full TLB (log 96). -/
def tlbAdd (t : List TlbEntry) (cap p va : Nat) (l : Leaf) : List TlbEntry :=
  (⟨p, va / l.reach * l.reach, l⟩ :: t.filter (fun e => !(e.part = p && e.va = va / l.reach * l.reach))).take cap

/-- Adds an entry to a cache of 8 ways; the oldest entry of a full set leaves (R76, log 96). The list is the youngest first. -/
def addWay {α : Type} (set : α → Nat) (same : α → α → Bool) (x : α) (l : List α) : List α :=
  let l := l.filter (fun e => !same x e)
  if (l.filter (fun e => set e == set x)).length < 8 then x :: l
  else x :: (l.reverse.eraseP (fun e => set e == set x)).reverse

/-- The set of a die TLB's entry: its page, modulo 1,024 (R76, log 96). -/
def TlbEntry.set (e : TlbEntry) : Nat := e.va / e.leaf.reach % 1024

/-- Adds an entry to a die TLB. -/
def dieTlbAdd (t : List TlbEntry) (p va : Nat) (l : Leaf) : List TlbEntry :=
  addWay TlbEntry.set (fun a b => a.part == b.part && a.va == b.va) ⟨p, va / l.reach * l.reach, l⟩ t

/-- Adds pointers to a walk cache: 64 sets (R76, log 96). -/
def walkCacheAdd (t : List PtrEntry) (new : List PtrEntry) : List PtrEntry :=
  new.foldr (fun e t => addWay (fun e : PtrEntry => e.tag % 64) (fun a b => a.part == b.part && a.level == b.level && a.tag == b.tag) e t) t

/-- A cluster's lookup: its own TLB, then its die's (R76). -/
def tlbLookup (d : Dev) (c p va : Nat) : Option Leaf :=
  match tlbFind (d.cluster c).tlb p va with
  | some l => some l
  | none => tlbFind (d.die (c / 64)).tlb p va

def Leaf.pa (l : Leaf) (va : Nat) : Nat := l.base + va % l.reach

/-- What an access needs of its page. -/
inductive Need where
  | read | write | exec
  deriving DecidableEq, Repr

/-- The answer to a translation. -/
inductive Xl where
  | hit (pa : Nat) (l : Leaf)
  | miss
  | fault (c : FCode)
  deriving DecidableEq, Repr

/-- The permission checks of R73 and R79 on a leaf. -/
def permit (l : Leaf) (va : Nat) : Need → Xl
  | .read => .hit (l.pa va) l
  | .write => if l.w then .hit (l.pa va) l else .fault .writeProt
  | .exec => if l.x then .hit (l.pa va) l else .fault .execProt

/-- Translates a virtual address for a warp's word: the results held for the word, then the TLBs (R76). -/
def xlate (d : Dev) (held : List (Nat × XRes)) (c p va : Nat) (need : Need) : Xl :=
  match held.find? (fun e => e.1 = va / 65536) with
  | some (_, .fault f) => .fault f
  | some (_, .leaf l) => permit l va need
  | none =>
    match tlbLookup d c p va with
    | some l => permit l va need
    | none => .miss

/-- What an address translates to when no access waits for it: a TLB's entry, or the table as it stands. -/
def xlateNow (d : Dev) (t : List TlbEntry) (p va : Nat) (need : Need) : Xl :=
  match tlbFind t p va with
  | some l => permit l va need
  | none =>
    match (walk d p (d.part p).ptbase va []).1 with
    | .leaf l => permit l va need
    | .fault f => .fault f

/-- Registers a miss (R77, R78): it joins a walk or a queued miss of its key, or enters the queue when there is room. -/
def addMiss (d : Dev) (die p va : Nat) (who : Asker) : Dev :=
  let x := d.die die
  let page := va / 65536
  let join := fun (w : Walk) => if w.part = p ∧ w.page = page ∧ !w.who.contains who then { w with who := w.who ++ [who] } else w
  if x.walkers.any (fun e => e.2.part = p ∧ e.2.page = page) then
    d.setDie die { x with walkers := x.walkers.map (fun e => (e.1, join e.2)) }
  else if x.misses.any (fun w => w.part = p ∧ w.page = page) then
    d.setDie die { x with misses := x.misses.map join }
  else if x.misses.length < 256 then
    d.setDie die { x with misses := x.misses ++ [⟨p, page, (d.part p).ptbase, false, [who]⟩] }
  else d

/-- The copy engine that serves a cluster (R188). -/
def engineOf (c : Nat) : Nat := 32 * (c / 64) + c % 64 / 2

/-- Gives a requester the answer of its walk: a warp's word holds it, another agent finds it at its die. -/
def deliver (d : Dev) (die part page : Nat) (r : XRes) (who : Asker) : Dev :=
  match who with
  | .thread k => d.modWarp k (fun w => { w with xs := w.xs ++ [(page, r)] })
  | .lanes k => d.modWarp k (fun w => { w with xl := w.xl ++ [(page, r)] })
  | _ => d.setDie die { d.die die with answers := (d.die die).answers ++ [⟨who, part, page, r⟩] }

/-- Installs a leaf in the TLB that its requester looks in first (R76). -/
def installTlb (d : Dev) (part va : Nat) (l : Leaf) (who : Asker) : Dev :=
  let cluster := fun (c : Nat) => d.setCluster c { d.cluster c with tlb := tlbAdd (d.cluster c).tlb 128 part va l }
  let engine := fun (e : Nat) => d.setEngine e { d.engine e with tlb := tlbAdd (d.engine e).tlb 32 part va l }
  match who with
  | .thread k | .lanes k => cluster (k / 32)
  | .mop i => match d.mops.get? i with
    | some o => if o.crew < 2 ^ 20 then cluster (o.crew / 32) else d
    | none => d
  | .ask ck _ => cluster (ck / 32)
  | .job ck _ | .coll ck => engine (engineOf (ck / 32))
  | .hart _ | .rake _ => d

/-- Gives the answer to the requesters of a walk of a die, and installs a leaf in their TLBs (R76, R77). -/
def finishWalk (die : Nat) (d : Dev) (w : Walk) (r : XRes) : Dev :=
  let d := w.who.foldl (fun d who => deliver d die w.part w.page r who) d
  match r with
  | .fault _ => d
  | .leaf l => w.who.foldl (fun d who => installTlb d w.part (w.page * 65536) l who) d

/-! ### Agents other than a warp's word (R76 to R78) -/

/-- What an agent at a die finds for an address: the answer of its walk, its own TLB, the die's. -/
def agentX (d : Dev) (die : Nat) (own : List TlbEntry) (who : Asker) (p va : Nat) (need : Need) : Xl :=
  match (d.die die).answers.find? (fun e => e.who = who ∧ e.part = p ∧ e.page = va / 65536) with
  | some ⟨_, _, _, .fault f⟩ => .fault f
  | some ⟨_, _, _, .leaf l⟩ => permit l va need
  | none =>
    match tlbFind own p va with
    | some l => permit l va need
    | none => match tlbFind (d.die die).tlb p va with
      | some l => permit l va need
      | none => .miss

/-- Requesters that go away leave the walks that they wait for, and their answers go. -/
def forgetAsks (d : Dev) (gone : Asker → Bool) : Dev :=
  let drop := fun (w : Walk) => { w with who := w.who.filter (fun a => !gone a) }
  { d with dies := d.dies.map (fun e => (e.1, { e.2 with
      walkers := e.2.walkers.map (fun w => (w.1, drop w.2))
      misses := e.2.misses.map drop
      answers := e.2.answers.filter (fun a => !gone a.who) })) }

/-- The agent has used the answers of its walks. -/
def dropAnswers (d : Dev) (die : Nat) (who : Asker) : Dev :=
  if (d.die die).answers.all (fun e => e.who != who) then d
  else d.setDie die { d.die die with answers := (d.die die).answers.filter (fun e => e.who != who) }

/-- WALK_START (R77, R78): the oldest queued miss takes a free walker; its walk uses PTBASE as it stands (R72). -/
def walkStartD (die : Nat) (d : Dev) : Dev :=
  let x := d.die die
  match x.misses, (List.range 64).find? (fun i => (x.walkers.get? i).isNone) with
  | w :: rest, some i =>
    d.setDie die { x with misses := rest, walkers := x.walkers.set i { w with base := (d.part w.part).ptbase, stale := false } }
  | _, _ => d

/-- WALK_COMPLETE (R71 to R77, R85). -/
def walkCompleteD (die walker : Nat) (d : Dev) : Dev :=
  let x := d.die die
  match x.walkers.get? walker with
  | none => d
  | some w =>
    let d1 := d.setDie die { x with walkers := x.walkers.erase walker }
    if w.stale then d1
    else
      let (r, ptrs) := walk d w.part w.base (w.page * 65536) x.ptrs
      let d1 := (walkReads d w.part w.base (w.page * 65536) x.ptrs).foldl (fun d a => agentReads d w.part a 8) d1
      match r with
      | .fault _ => finishWalk die d1 w r
      | .leaf l =>
        let inPage := fun (m : Walk) => decide (m.part = w.part ∧ m.page * 65536 / l.reach = w.page * 65536 / l.reach)
        let x1 := d1.die die
        let d2 := d1.setDie die { x1 with
          tlb := dieTlbAdd x1.tlb w.part (w.page * 65536) l
          ptrs := walkCacheAdd x1.ptrs ptrs
          misses := x1.misses.filter (fun m => !inPage m) }
        (x1.misses.filter inPage).foldl (fun d m => finishWalk die d m r) (finishWalk die d2 w r)

/-- WALK_START. -/
def execWalkStart (die : Nat) (s : State) : Host.Outcome State Fault Refusal := eventStep s (walkStartD die)
/-- WALK_COMPLETE. -/
def execWalkComplete (die walker : Nat) (s : State) : Host.Outcome State Fault Refusal := eventStep s (walkCompleteD die walker)

/-! ### PTBASE and shootdown -/

/-- PTBASE_WRITE (R72): walks in progress are then treated under R85. -/
def ptbaseWriteD (p : Nat) (v : W64) (d : Dev) : Dev :=
  let x := d.part p
  if bits v 63 52 ≠ 0 ∨ bits v 11 2 ≠ 0 then d.setPart p { x with ptbase := x.ptbase ||| 2#64 }
  else
    let d := d.setPart p { x with ptbase := v &&& ~~~ 2#64 }
    { d with dies := d.dies.map (fun e => (e.1, { e.2 with walkers := e.2.walkers.map (fun w =>
        (w.1, if w.2.part = p then { w.2 with stale := true } else w.2)) })) }

def execPtbaseWrite (p : Nat) (v : W64) (s : State) : Host.Outcome State Fault Refusal := eventStep s (ptbaseWriteD p v)

/-- The 64 KiB pages [lo, hi) that XINVA and XINVC name (R83). -/
def shootRange (xinva v : W64) : Nat × Nat :=
  let n := bits v 47 16
  if n = 0 then (0, 2 ^ 32)
  else
    let unit := if bits v 1 0 = 0 then 1 else if bits v 1 0 = 1 then 512 else 16384
    let lo := bits xinva 47 16 / unit * unit
    (lo, lo + n * unit)

def inRange (r : Nat × Nat) (page : Nat) : Bool := r.1 ≤ page && page < r.2

/-- A leaf's page meets the range. -/
def leafMeets (r : Nat × Nat) (va reach : Nat) : Bool := va / 65536 < r.2 && r.1 < va / 65536 + reach / 65536

/-- Removes the entries of a range from every TLB and walk cache, and marks walks in progress (R84, R85). -/
def dropTranslations (d : Dev) (p : Nat) (r : Nat × Nat) : Dev :=
  let keep := fun (e : TlbEntry) => !(e.part == p && leafMeets r e.va e.leaf.reach)
  let held := fun (l : List (Nat × XRes)) => l.filter (fun e => !inRange r e.1)
  { d with
    clusters := d.clusters.map (fun e => (e.1, { e.2 with tlb := e.2.tlb.filter keep }))
    engines := d.engines.map (fun e => (e.1, { e.2 with tlb := e.2.tlb.filter keep }))
    dies := d.dies.map (fun e => (e.1, { e.2 with
      tlb := e.2.tlb.filter keep
      answers := e.2.answers.filter (fun a => !(a.part == p && inRange r a.page))
      ptrs := e.2.ptrs.filter (fun q => !(q.part == p && leafMeets r (q.tag * 2 ^ levelShift q.level) (2 ^ levelShift q.level)))
      walkers := e.2.walkers.map (fun w => (w.1, if w.2.part = p ∧ inRange r w.2.page then { w.2 with stale := true } else w.2)) }))
    warps := d.warps.map (fun e => if d.partOf e.2 = p then (e.1, { e.2 with xs := held e.2.xs, xl := held e.2.xl }) else e) }

/-- An operation's pages meet the range. -/
def opMeets (p : Nat) (r : Nat × Nat) (o : MemOp) : Bool := o.part == p && o.pages.any (inRange r)

/-- Cancels a prefetch whose data have not returned: its counter falls (R84, R272). -/
def cancelPf (d : Dev) (e : Nat × MemOp) : Dev :=
  let d := { d with ops := d.ops.erase e.1 }
  d.modWarp e.2.warp (fun w => w.returned e.2.path e.1)

/-- The request's access is under way: a load has not returned, another request has not been performed (R84). -/
def Sub.accessing (u : Sub) : Bool :=
  match u.act with
  | .load => u.st != .back
  | _ => u.st == .sent || u.st == .far

/-- The window is filling by an ask of its crew for a source in the range. -/
def askMeets (r : Nat × Nat) (x : Win) : Bool :=
  x.state == .filling && (x.filler == .ask || x.filler == .fill) && inRange r (x.desc.toNat % 2 ^ 64 / 65536)

/-- A record's load was asked for by a member whose source lies in the range. -/
def recMeets (d : Dev) (p : Nat) (r : Nat × Nat) (g : GRec) : Bool :=
  inWindows d p g.srcpa g.size && d.crews.any (fun e => e.2.id.part == p &&
    e.2.groups.any (fun m => m.1 == g.gid && g.ask.getLsbD m.2) && e.2.wins.any (fun w => askMeets r w.2))

/-- Marks the readers under the removed entries: requests, queued blocks, and group loads (R84). -/
def markReaders (d : Dev) (p : Nat) (r : Nat × Nat) : Dev :=
  let sub := fun (u : Sub) => if u.accessing && u.pages.any (inRange r) then { u with under := true } else u
  let block := fun (b : Block) => if b.xs.any (fun e => inRange r e.1) then { b with under := true } else b
  { d with
    ops := d.ops.map (fun e => if e.2.part = p then (e.1, { e.2 with subs := e.2.subs.map (fun u => (u.1, sub u.2)) }) else e)
    warps := d.warps.map (fun e => if d.partOf e.2 = p then (e.1, { e.2 with queue := e.2.queue.map block }) else e)
    crews := d.crews.map (fun e => if e.2.id.part = p then
      (e.1, { e.2 with wins := e.2.wins.map (fun w => (w.1, if askMeets r w.2 then { w.2 with under := true } else w.2)) }) else e)
    pans := d.pans.map (fun e => (e.1, { e.2 with records := e.2.records.map (fun g => if recMeets d p r g then { g with under := true } else g) })) }

/-- XINVC_GO: a write of XINVC (R83 to R85). -/
def xinvcGoD (p : Nat) (v : W64) (d : Dev) : Dev :=
  let x := d.part p
  if bits v 1 0 = 3 ∨ (bit v 63 ∧ bit x.xinvc 63) then d.setPart p { x with xinvc := x.xinvc ||| 0x2000000000000000#64 }
  else if !bit v 63 then
    if bit x.xinvc 63 then d
    else d.setPart p { x with xinvc := (x.xinvc &&& 0xE000000000000000#64) ||| (v &&& 0xFFFFFFFF0003#64) }
  else
    let r := shootRange x.xinva v
    let d := d.setPart p { x with xinvc := 0x8000000000000000#64 ||| (v &&& 0xFFFFFFFF0003#64), shoot := some r }
    let d := markReaders (dropTranslations d p r) p r
    (d.ops.filter (fun e => (e.2.kind == .pf) && opMeets p r e.2)).foldl cancelPf d

def execXinvcGo (p : Nat) (v : W64) (s : State) : Host.Outcome State Fault Refusal := eventStep s (xinvcGoD p v)

/-- A record still reads its source. -/
def GRec.reading (g : GRec) : Bool := g.state == .holding || g.state == .offering || g.state == .filling

/-- Readers under a removed entry that have not finished, and pins on lines of the range, until their unpin (R84, R284). -/
def readersLeft (d : Dev) (p : Nat) (r : Nat × Nat) : Bool :=
  d.ops.any (fun e => e.2.part == p && e.2.subs.any (fun u => u.2.under && u.2.accessing)) ||
    d.warps.any (fun e => d.partOf e.2 == p && e.2.queue.any (·.under)) ||
    d.crews.any (fun e => e.2.id.part == p && e.2.wins.any (fun w => w.2.under && w.2.state == .filling)) ||
    d.pans.any (fun e => e.2.records.any (fun g => g.under && g.reading && inWindows d p g.srcpa g.size)) ||
    d.clusters.any (fun e => e.2.holds.any (fun h => h.2.names.any (fun v => v.1 == p && inRange r (v.2 / 1024))))

/-- The marks of a shootdown that is done go. -/
def unmarkReaders (d : Dev) (p : Nat) : Dev :=
  { d with
    ops := d.ops.map (fun e => if e.2.part = p then (e.1, { e.2 with subs := e.2.subs.map (fun u => (u.1, { u.2 with under := false })) }) else e)
    crews := d.crews.map (fun e => if e.2.id.part = p then
      (e.1, { e.2 with wins := e.2.wins.map (fun w => (w.1, { w.2 with under := false })) }) else e)
    pans := d.pans.map (fun e => (e.1, { e.2 with records := e.2.records.map (fun g =>
      if inWindows d p g.srcpa g.size then { g with under := false } else g) })) }

/-- SHOOTDOWN_DONE (R83, R84): sets DONE once every reader has finished and every pin is released. -/
def shootdownDoneD (p : Nat) (d : Dev) : Dev :=
  let x := d.part p
  match x.shoot with
  | none => d
  | some r =>
    if readersLeft d p r then d
    else (unmarkReaders d p).setPart p { x with shoot := none, xinvc := (x.xinvc &&& 0x7FFFFFFFFFFFFFFF#64) ||| 0x4000000000000000#64 }

def execShootdownDone (p : Nat) (s : State) : Host.Outcome State Fault Refusal := eventStep s (shootdownDoneD p)

/-! ### Translating in a scalar word -/

/-- Translates va for a scalar word of len bytes and goes on with the physical address; a miss waits for its walk,
NOTMAPPED parks the thread on a fault record and re-executes the word whole (R80), and a protection fault is taken. -/
def withXlate (d : Dev) (k : Nat) (w : Warp) (va : Nat) (need : Need) (kind : Nat) (f : Nat → Leaf → Dev) : Dev :=
  let p := d.partOf w
  match xlate d w.xs w.cluster p va need with
  | .hit pa l => f pa l
  | .miss => stall (addMiss d (w.cluster / 64) p va (.thread k)) k w
  | .fault .notMapped =>
    let (d, q) := addFault d p (va / 65536 * 65536) 0 0 .notMapped kind w.cluster w.wslot
    d.setWarp k { w with park := .records [q], xs := [], rd := Reads.empty }
  | .fault c => protFault d k w c

/-- The address form of a scalar access (R224): a tagged address raises TAGMISUSE, another form NONCANON. -/
def withVa (d : Dev) (k : Nat) (w : Warp) (a : W64) (f : Nat → Dev) : Dev :=
  match aform a with
  | .va n => f n
  | .tagged _ _ => protFault d k w .tagMisuse
  | .bad => protFault d k w .nonCanon

end Sys2Proof.Machine
end

