-- ==== Sys2Proof/Machine/Request.lean ====
section
/-!
DEFINITION. The way of a request from a cluster to a pan: choosing the pan (R97 to R101), L1 (R102, R306), the cluster's
outgoing order (R307, R459, R285), and the bookkeeping of a memory word's operation.
-/
namespace Sys2Proof.Machine

/-! ### Operations -/

/-- Changes one request of an operation. -/
def modSub (d : Dev) (id key : Nat) (f : Sub → Sub) : Dev := d.modOp id (fun o => { o with subs := o.subs.modify key f })

def MemOp.new (k : Nat) (w : Warp) (p : Nat) (st : Stream) (path : Path) (kind : OpKind) (waddr block : Nat) : MemOp :=
  ⟨k, p, w.cluster, st, path, kind, waddr, block, w.blocks, 0, 0, 0, [], [], [], [], [], 0, 0, [], []⟩

/-- A request that asks nothing more of the cluster: returned, or a write acknowledged by its relay (R101, R315). -/
def Sub.settled (u : Sub) : Bool :=
  u.st == .back || (u.st == .far && (match u.act with
    | .store _ => true
    | .zero => true
    | _ => false))

/-- The partition of a crew's matrix operation. -/
def mopPart (d : Dev) (o : MOp) : Nat := ((d.crews.get? o.crew).map (·.id.part)).getD 0

/-- Matrix operation i of the cluster has still to pin the line. -/
def namesLine (d : Dev) (c line i : Nat) : Bool :=
  match d.mops.get? i with
  | some o => o.vlines.any (fun v => v % 1024 == line % 1024 &&
      (match xlateNow d (d.cluster c).tlb (mopPart d o) (v * 64) .read with
      | .hit pa _ => pa / 64 == line
      | _ => false))
  | none => false

/-- A pin on the line is in place, or to come for a matrix operation of the cluster queued before operation `self` (R285). -/
def pinExpected (d : Dev) (c line self : Nat) : Bool :=
  ((d.cluster c).holds.get? line).isSome || (d.cluster c).mq.any (fun i => i < self && namesLine d c line i)

/-- An earlier matrix operation of warp k has still to pin the line: the warp's later read of it comes after the pin (R324, MP before LD). -/
def pinBefore (d : Dev) (k c line self : Nat) : Bool :=
  (d.cluster c).mq.any (fun i => i < self && ((d.mops.get? i).map (·.warp)) == some k && namesLine d c line i)

def isPf : OpKind → Bool
  | .pf => true
  | _ => false

/-- A write that has left the cluster for another die, or for a peer, is not acknowledged: by its pan or relay there, by the peer
itself (R307, R415). `behind` are the requests still in the cluster. -/
def unacknowledged (d : Dev) (c pan line : Nat) (behind : List (Nat × Nat)) : Bool :=
  (isPeer (line * 64) || pan / 64 != c / 64) && d.ops.any (fun e => e.2.cluster == c && e.2.subs.any (fun u =>
    u.2.line == line && u.2.act.isWrite && !behind.contains (e.1, u.1) &&
      (if isPeer (line * 64) then u.2.st != .back else !u.2.settled)))

/-- A load of host memory by warp k, among the requests that `mine` selects, is not performed: those of a warp are performed in issue order
(R323). -/
def hostBefore (d : Dev) (k : Nat) (mine : Nat × Nat → Bool) : Bool :=
  d.ops.any (fun e => e.2.warp == k && !isPf e.2.kind && e.2.subs.any (fun u =>
    isHost (u.2.line * 64) && u.2.act == .load && u.2.st == .sent && mine (e.1, u.1)))

/-- The request may not leave the cluster yet: an earlier write of the cluster to the line is not acknowledged (R307, R415), the line is
pinned for the cluster's tile fetch unit (R285), or a read waits for an earlier pin of its warp (R324) or an earlier read of host memory. -/
def heldAtCluster (d : Dev) (o : MemOp) (u : Sub) (self : Nat × Nat) (behind : List (Nat × Nat)) : Bool :=
  (isHost (u.line * 64) && u.act == .load && !isPf o.kind && hostBefore d o.warp (fun q => q.1 ≤ self.1 && !(self :: behind).contains q)) ||
  (u.act.waitsUnpin && pinExpected d o.cluster u.line self.1) ||
    (u.act == .load && !isPf o.kind && pinBefore d o.warp o.cluster u.line self.1) ||
    unacknowledged d o.cluster (panOf d o.part u.line) u.line (self :: behind)

/-- The request at a place of a cluster's queue is kept at the cluster, itself or behind one to its line (R285, R307). -/
def keptAt (d : Dev) (q : List (Nat × Nat)) (pos : Nat) : Bool :=
  match (q[pos]?).bind (subOf d) with
  | none => false
  | some (_, u) => (List.range (pos + 1)).any (fun j => match q[j]? with
    | none => false
    | some r => match subOf d r with
      | some (o', u') => u'.line == u.line && heldAtCluster d o' u' r (q.drop (j + 1))
      | none => false)

/-- The bank queue of a request's pan has room (R103). -/
def hasCredit (d : Dev) (o : MemOp) (u : Sub) : Bool :=
  decide ((((d.pan (panOf d o.part u.line)).banks.getD (bankOf (u.line * 64)) []).length) < 64)

/-- A request may arrive before the earlier one at place j of its cluster's queue: that one is to another line, and is kept at the cluster,
or has left before it while this one crosses to another die (R114, R459). -/
def overtakes (d : Dev) (c : Nat) (q : List (Nat × Nat)) (o : MemOp) (u : Sub) (j : Nat) : Bool :=
  match (q[j]?).bind (subOf d) with
  | none => true
  | some (o', u') => u'.line != u.line && (keptAt d q j || (panOf d o.part u.line / 64 != c / 64 && hasCredit d o' u'))

/-- The request at a place of a cluster's queue goes over the request viaduct to the bank of its pan (R103, R114, R459), at most three in a
core clock, which is three fabric clocks. -/
def sendOne (d : Dev) (c pos : Nat) : Dev :=
  let x := d.cluster c
  let q := x.outq
  let n := if x.sentAt = d.clock then x.sent else 0
  match q[pos]? with
  | none => d
  | some r =>
    let rest := q.eraseIdx pos
    match subOf d r with
    | none => d.setCluster c { x with outq := rest }
    | some (o, u) =>
      if 3 ≤ n || keptAt d q pos || !(List.range pos).all (overtakes d c q o u) || !hasCredit d o u then d
      else
        let d := modSub { d with replies := d.replies + 1 } r.1 r.2 (fun u => { u with order := d.replies })
        let pan := panOf d o.part u.line
        let b := bankOf (u.line * 64)
        let d := d.setCluster c { x with outq := rest, sentAt := d.clock, sent := n + 1 }
        d.setPan pan { d.pan pan with banks := (d.pan pan).banks.set b ((d.pan pan).banks.getD b [] ++ [r]) }

/-- Puts the requests of an operation behind those of the cluster that wait to be sent, in the order given (R459). -/
def send (d : Dev) (c : Nat) (l : List (Nat × Nat)) : Dev :=
  d.setCluster c { d.cluster c with outq := (d.cluster c).outq ++ l }

/-! ### L1 (R102, R306) -/

/-- The L1 copy of a line, unless it has aged out. -/
def l1Find (d : Dev) (c line : Nat) : Option L1Line :=
  match (d.cluster c).l1.get? line with
  | some l => if d.clock < l.filled + 2048 then some l else none
  | none => none

/-- Installs a line in L1: 16 ways of 256 sets, set PA[13:6] (R102). -/
def l1Install (d : Dev) (c line : Nat) (data : Line) (filled order hint : Nat) : Dev :=
  let x := d.cluster c
  let sameSet := x.l1.filter (fun e => e.1 % 256 == line % 256 && e.1 != line)
  let l1 := if sameSet.length < 16 then x.l1
    else match leastRank (sameSet.map (fun e => (e.1, evictRank e.2.hint e.2.used))) with
      | some k => x.l1.erase k
      | none => x.l1
  d.setCluster c { x with l1 := l1.set line ⟨data, filled, hint, d.clock, order⟩ }

/-- Byte i of a line. -/
def lineByte (l : Line) (i : Nat) : Byte := l.extractLsb' (8 * i) 8

/-- Puts the bits of v that the mask selects into byte i. -/
def lineSetByte (l : Line) (i : Nat) (v m : Byte) : Line :=
  let x := (lineByte l i &&& ~~~ m) ||| (v &&& m)
  (l &&& ~~~ ((BitVec.ofNat 512 255) <<< (8 * i))) ||| ((x.setWidth 512) <<< (8 * i))

/-- n bytes of a line from byte i. -/
def lineBytes (l : Line) (i n : Nat) : Nat := (l.toNat / 256 ^ i) % 256 ^ n

/-- An access with a hint uses the copy: it becomes the last used and has the access's mark; hint 4 leaves both (R48, R102, log 97). -/
def L1Line.touch (l : L1Line) (now hint : Nat) : L1Line := if hint = 4 then l else { l with used := now, hint := hint }

/-- A store updates the copy in the issuing cluster's L1, and loads already on their way do not install older data. -/
def l1Store (d : Dev) (c line hint : Nat) (bs : List (Nat × Byte × Byte)) : Dev :=
  let d := noInstall d c (·.line == line)
  let x := d.cluster c
  match x.l1.get? line with
  | none => d
  | some l =>
    let l := { l.touch d.clock hint with data := bs.foldl (fun a b => lineSetByte a b.1 b.2.1 b.2.2) l.data }
    d.setCluster c { x with l1 := x.l1.set line l }

def l1Drop (d : Dev) (c line : Nat) : Dev :=
  let d := noInstall d c (·.line == line)
  d.setCluster c { d.cluster c with l1 := (d.cluster c).l1.erase line }

/-- The line as memory holds it. -/
def lineAt (d : Dev) (line : Nat) : Line := BitVec.ofNat 512 (devReadN d (line * 64) 64)

/-- The warp waits for an outstanding invocation of its own on the line (R142), or for an acquire that its access follows (R143): a lane
word follows no satom that is outstanding. -/
def mustWait (d : Dev) (k : Nat) (w : Warp) (lines : List Nat) : Bool :=
  w.acquires.any (fun e => !e.2.2) || d.ops.any (fun e => e.2.warp == k && e.2.subs.any (fun u =>
    lines.contains u.2.line && u.2.st != .back && (match u.2.act with
      | .routine .. => true
      | _ => false)))

/-- A reading of the line came after this place: the cluster's L1 copy from before it goes, and a load performed before it does not
install its copy (R305). -/
def forgetOlder (d : Dev) (c line order : Nat) : Dev :=
  let d := noInstall d c (fun u => u.line == line && u.st == .performed && u.order < order)
  match (d.cluster c).l1.get? line with
  | some l => if l.order < order then d.setCluster c { d.cluster c with l1 := (d.cluster c).l1.erase line } else d
  | none => d

/-- A load of the warp for the line is on its way to the pan, or its value is newer than this place (R305). -/
def newerAsked (d : Dev) (k line order : Nat) : Bool :=
  d.ops.any (fun e => e.2.warp == k && !isPf e.2.kind && e.2.subs.any (fun u => u.2.line == line && u.2.act == .load &&
    (u.2.st == .sent || u.2.st == .far || (u.2.st == .performed && order < u.2.order))))

/-- A load request of warp k for a line: served by L1 when the line is there, unless the warp has asked for a newer value (R305) or an
earlier matrix operation of it has still to pin the line (R324), else sent to the pan. Hint 5 drops the copy after (R48). -/
def loadSub (d : Dev) (k c line hint : Nat) : Dev × Sub :=
  let ask := (d, { Sub.new line .load with noInstall := decide (hint = 3 ∨ hint = 4 ∨ hint = 5), hint := hint })
  match l1Find d c line with
  | some l =>
    if newerAsked d k line l.order || pinBefore d k c line d.nextId then ask
    else
      let d := if hint = 5 then l1Drop d c line
        else d.setCluster c { d.cluster c with l1 := (d.cluster c).l1.set line (l.touch d.clock hint) }
      (d, { Sub.new line .load with st := .performed, data := l.data, at_ := l.filled, order := l.order, noInstall := true, hint := hint })
  | none => ask

/-- The networks return the replies of one pan to one cluster of its die in the order in which it sent them (R114). -/
def replyDue (d : Dev) (o : MemOp) (u : Sub) : Bool :=
  u.pan / 64 != o.cluster / 64 || d.ops.all (fun e => e.2.cluster != o.cluster || e.2.subs.all (fun v =>
    v.2.st != .performed || v.2.pan != u.pan || u.order ≤ v.2.order))

/-- A returned load may install its line in L1: not poisoned, not overtaken by a write, an invalidation or a later reading; an older
copy goes (R305). -/
def installSub (d : Dev) (c : Nat) (u : Sub) : Dev :=
  let d := forgetOlder d c u.line u.order
  if u.noInstall || u.poison != 0 || (l1Find d c u.line).isSome then d else l1Install d c u.line u.data u.at_ u.order u.hint

/-! ### Reads of a word that waits for them -/

/-- What the word in progress of a stream has read. -/
def Warp.reads (w : Warp) (lane : Bool) : Reads := if lane then w.rl else w.rd
def Warp.setReads (w : Warp) (lane : Bool) (r : Reads) : Warp := if lane then { w with rl := r } else { w with rd := r }

/-- A line read, with its poisoned sectors. -/
def Reads.line (r : Reads) (l : Nat) : Option (Line × BitVec 4) := (r.lines.find? (fun e => e.1 == l)).map (·.2)

/-- The n bytes at pa, little-endian (R12), from the lines read. -/
def Reads.value (r : Reads) (pa n : Nat) : Nat :=
  (lineParts pa n).foldr (fun e v => lineBytes (((r.line e.1).map (·.1)).getD 0) e.2.1 e.2.2 + 256 ^ e.2.2 * v) 0

/-- The lowest poisoned sector of the n bytes at pa (R478). -/
def Reads.bad (r : Reads) (pa n : Nat) : Option Nat :=
  ((sectorsOf pa n).find? (fun s => (((r.line (s / 4)).map (fun e => e.2)).getD 0#4).getLsbD (s % 4))).map (· * 16)

/-- The requests of a read, line by line: a scalar load's, which L1 may serve, or device-scope ones, which go to the pans and leave L1
alone. -/
def readSubs (k c hint : Nat) (l1 : Bool) : List (Nat × Nat) → Dev → Dev × Tab Sub
  | [], d => (d, [])
  | (l, page) :: r, d =>
    let (d, u) := if l1 then loadSub d k c l hint else (d, { Sub.new l .load with noInstall := true, hint := hint })
    let (d, t) := readSubs k c hint l1 r d
    (d, t.set l { u with pages := [page] })

/-- The word asks for lines, with their virtual pages, that it goes on with: `counts` says that the read counts on G, like a scalar load
(R196, R222; log 108). -/
def startRead (lane l1 counts : Bool) (hint : Nat) (lines : List (Nat × Nat)) (d : Dev) (k : Nat) (w : Warp) : Dev × Warp :=
  let id := d.nextId
  let (d, subs) := readSubs k w.cluster hint l1 lines d
  let o := { MemOp.new k w (d.partOf w) (if lane then .lane else .scalar) (if lane then .t else .g) (.fetch lane) w.spc.toNat 0 with
    subs := subs, pages := distinct (lines.map (·.2)), hint := hint }
  let w := (if counts then w.raiseOut .g id else w).setReads lane { w.reads lane with op := some id }
  (send { d with nextId := id + 1, ops := d.ops.set id o } w.cluster ((subs.filter (fun e => e.2.st == .sent)).map (fun e => (id, e.1))), w)

/-- A read of n bytes, within a page, at a virtual address by a scalar instruction of len bytes: NOTMAPPED parks (R80), lines not read yet
are asked for, behind the warp's own invocations on them (R225), and poison is the data error of R224. -/
def withLoad (l1 counts : Bool) (d : Dev) (k : Nat) (w : Warp) (len va n : Nat) (f : Nat → Dev) : Dev :=
  withXlate d k w va .read 0 (fun pa l =>
    match (linesOf pa n).filter (fun x => (w.rd.line x).isNone) with
    | [] =>
      match w.rd.bad pa n with
      | some s => scalarTrap d k w len .dataErr (BitVec.ofNat 64 s) []
      | none => f (w.rd.value pa n)
    | x :: r =>
      if w.rd.op.isSome || mustWait d k w (x :: r) || (counts && w.full .g) then stall d k w
      else
        let (d, w) := startRead false l1 counts (if l.kind = 1 then 3 else 0) ((x :: r).map (fun y => (y, va / 65536))) d k w
        stall d k w)

/-- The same at device scope (R178, R280, R295). -/
def withRead (d : Dev) (k : Nat) (w : Warp) (len va n : Nat) (f : Nat → Dev) : Dev := withLoad false true d k w len va n f

/-- A read has come back: its lines are the word's, unless a trap has ended the word's try, and its count falls (R196, R305). -/
def fetchReturn (id : Nat) (lane : Bool) (o : MemOp) (d : Dev) : Dev :=
  if o.subs.any (fun e => e.2.st != .performed || !replyDue d o e.2) then d
  else
    let d := o.subs.foldl (fun d e => installSub d o.cluster e.2) { d with ops := d.ops.erase id }
    d.modWarp o.warp (fun w =>
      let w := if lane then w else w.returned .g id
      if (w.reads lane).op = some id then
        w.setReads lane ⟨none, (w.reads lane).lines ++ o.subs.map (fun e => (e.2.line, e.2.data, e.2.poison))⟩
      else w)

end Sys2Proof.Machine
end

