-- ==== Sys2Proof/Machine/Scalar.lean ====
section
/-!
DEFINITION. Scalar integer words: the ALU group (R217), the compare group (R219), the SI arithmetic and compares (R218), the
branches (R32, R220) and land (R223).
-/
namespace Sys2Proof.Machine

/-- Width of an ALU type code (R57). -/
def aluW (t : BitVec 2) : Nat := if t.toNat < 2 then 64 else 32

/-- The signed types (R217). -/
def aluSigned (t : BitVec 2) : Bool := t == 0#2 || t == 2#2

/-- An operand read at the type (R217). -/
def aluArg (t : BitVec 2) (x : W64) : Nat := x.toNat % 2 ^ aluW t

/-- An operand read as a number by the type's sign (R217, R219). -/
def aluVal (t : BitVec 2) (x : W64) : Int :=
  if aluW t = 64 then val x (aluSigned t) else val (x.setWidth 32) (aluSigned t)

/-- The result modulo 2^W, extended to 64 bits (R57, R217). -/
def aluExt (t : BitVec 2) (r : Int) : W64 :=
  let low := BitVec.ofInt (aluW t) r
  if t = 2#2 then low.signExtend 64 else low.setWidth 64

/-- A word of the ALU group with its legal types, whether b is read, and its result. -/
def aluWord (d a b : BitVec 6) (t : BitVec 2) (types : Bool) (usesB : Bool) (f : W64 → W64 → Int) : Dev → Nat → Warp → Dev :=
  checked [ckType types, ckZero (usesB || b == 0#6)]
    (interlock [d.toNat, a.toNat, b.toNat]
      (fun dv k w => done dv k (w.setS d.toNat (aluExt t (f (w.s a.toNat) (w.s b.toNat)))) 4))

def bitType (t : BitVec 2) : Bool := t == 1#2 || t == 3#2

/-- ADD (R217). -/
def execAdd (d a b : BitVec 6) (t : BitVec 2) (s : State) : Host.Outcome State Fault Refusal :=
  scalarWord s (aluWord d a b t (true) true (fun x y => aluVal t x + aluVal t y))

/-- SUB (R217). -/
def execSub (d a b : BitVec 6) (t : BitVec 2) (s : State) : Host.Outcome State Fault Refusal :=
  scalarWord s (aluWord d a b t (true) true (fun x y => aluVal t x - aluVal t y))

/-- MUL (R217). -/
def execMul (d a b : BitVec 6) (t : BitVec 2) (s : State) : Host.Outcome State Fault Refusal :=
  scalarWord s (aluWord d a b t (true) true (fun x y => aluVal t x * aluVal t y))

/-- MULHI (R217). -/
def execMulhi (d a b : BitVec 6) (t : BitVec 2) (s : State) : Host.Outcome State Fault Refusal :=
  scalarWord s (aluWord d a b t (true) true (fun x y => (aluVal t x * aluVal t y) / 2 ^ aluW t))

/-- AND (R217). -/
def execAnd (d a b : BitVec 6) (t : BitVec 2) (s : State) : Host.Outcome State Fault Refusal :=
  scalarWord s (aluWord d a b t (bitType t) true (fun x y => ((aluArg t x &&& aluArg t y : Nat) : Int)))

/-- OR (R217). -/
def execOr (d a b : BitVec 6) (t : BitVec 2) (s : State) : Host.Outcome State Fault Refusal :=
  scalarWord s (aluWord d a b t (bitType t) true (fun x y => ((aluArg t x ||| aluArg t y : Nat) : Int)))

/-- XOR (R217). -/
def execXor (d a b : BitVec 6) (t : BitVec 2) (s : State) : Host.Outcome State Fault Refusal :=
  scalarWord s (aluWord d a b t (bitType t) true (fun x y => ((aluArg t x ^^^ aluArg t y : Nat) : Int)))

/-- SHL (R217). -/
def execShl (d a b : BitVec 6) (t : BitVec 2) (s : State) : Host.Outcome State Fault Refusal :=
  scalarWord s (aluWord d a b t (bitType t) true (fun x y => ((aluArg t x <<< (y.toNat % aluW t) : Nat) : Int)))

/-- SHR (R217). -/
def execShr (d a b : BitVec 6) (t : BitVec 2) (s : State) : Host.Outcome State Fault Refusal :=
  scalarWord s (aluWord d a b t (bitType t) true (fun x y => ((aluArg t x >>> (y.toNat % aluW t) : Nat) : Int)))

/-- SRA (R217). -/
def execSra (d a b : BitVec 6) (t : BitVec 2) (s : State) : Host.Outcome State Fault Refusal :=
  scalarWord s (aluWord d a b t (bitType t) true (fun x y => (BitVec.ofNat (aluW t) x.toNat).toInt / 2 ^ (y.toNat % aluW t)))

/-- MIN (R217). -/
def execMin (d a b : BitVec 6) (t : BitVec 2) (s : State) : Host.Outcome State Fault Refusal :=
  scalarWord s (aluWord d a b t (true) true (fun x y => if aluVal t x ≤ aluVal t y then aluVal t x else aluVal t y))

/-- MAX (R217). -/
def execMax (d a b : BitVec 6) (t : BitVec 2) (s : State) : Host.Outcome State Fault Refusal :=
  scalarWord s (aluWord d a b t (true) true (fun x y => if aluVal t x ≤ aluVal t y then aluVal t y else aluVal t x))

/-- POPC (R217). -/
def execPopc (d a b : BitVec 6) (t : BitVec 2) (s : State) : Host.Outcome State Fault Refusal :=
  scalarWord s (aluWord d a b t (bitType t) false (fun x _ => ((popCount (aluArg t x) (aluW t) : Nat) : Int)))

/-- CLZ (R217). -/
def execClz (d a b : BitVec 6) (t : BitVec 2) (s : State) : Host.Outcome State Fault Refusal :=
  scalarWord s (aluWord d a b t (bitType t) false (fun x _ => ((leadZeros (aluArg t x) (aluW t) : Nat) : Int)))

/-- CMP (R219): q(d) := s(a) op s(b) at the type. -/
def execCmp (d a b : BitVec 6) (c r : BitVec 3) (t : BitVec 2) (s : State) : Host.Outcome State Fault Refusal :=
  scalarWord s (checked [(decide (c.toNat < 6), .illInst, 1), ckZero (r == 0#3), ckD (decide (d.toNat < 8))]
    (interlock [a.toNat, b.toNat] (fun dv k w =>
      done dv k (w.setQ d.toNat (condInt c.toNat (aluVal t (w.s a.toNat)) (aluVal t (w.s b.toNat)))) 4)))

/-! ### SI arithmetic: `imm` is the extended immediate, `len` the bytes of the word or of its prefix pair (R30) -/

/-- An SI word that computes s(d) from s(a). -/
def siWord (d a : BitVec 6) (len : Nat) (f : W64 → W64) : Dev → Nat → Warp → Dev :=
  interlock [d.toNat, a.toNat] (fun dv k w => done dv k (w.setS d.toNat (f (w.s a.toNat))) len)

/-- An SI compare into q(d). -/
def siCmp (d a : BitVec 6) (len : Nat) (f : W64 → Bool) : Dev → Nat → Warp → Dev :=
  checked [ckD (decide (d.toNat < 8))]
    (interlock [a.toNat] (fun dv k w => done dv k (w.setQ d.toNat (f (w.s a.toNat))) len))

/-- The 14-bit immediate alone (R30). -/
def imm14 (i : BitVec 14) : W64 := i.signExtend 64

def opAddiS64 (d a : BitVec 6) (i : W64) (len : Nat) : Dev → Nat → Warp → Dev := siWord d a len (fun x => x + i)

/-- addiS64 (R218). -/
def execAddiS64 (d a : BitVec 6) (imm : BitVec 14) (s : State) : Host.Outcome State Fault Refusal :=
  scalarWord s (opAddiS64 d a (imm14 imm) 4)

def opAddiS32 (d a : BitVec 6) (i : W64) (len : Nat) : Dev → Nat → Warp → Dev := siWord d a len (fun x => ((x + i).setWidth 32).signExtend 64)

/-- addiS32 (R218). -/
def execAddiS32 (d a : BitVec 6) (imm : BitVec 14) (s : State) : Host.Outcome State Fault Refusal :=
  scalarWord s (opAddiS32 d a (imm14 imm) 4)

def opAndiB64 (d a : BitVec 6) (i : W64) (len : Nat) : Dev → Nat → Warp → Dev := siWord d a len (fun x => x &&& i)

/-- andiB64 (R218). -/
def execAndiB64 (d a : BitVec 6) (imm : BitVec 14) (s : State) : Host.Outcome State Fault Refusal :=
  scalarWord s (opAndiB64 d a (imm14 imm) 4)

def opOriB64 (d a : BitVec 6) (i : W64) (len : Nat) : Dev → Nat → Warp → Dev := siWord d a len (fun x => x ||| i)

/-- oriB64 (R218). -/
def execOriB64 (d a : BitVec 6) (imm : BitVec 14) (s : State) : Host.Outcome State Fault Refusal :=
  scalarWord s (opOriB64 d a (imm14 imm) 4)

def opXoriB64 (d a : BitVec 6) (i : W64) (len : Nat) : Dev → Nat → Warp → Dev := siWord d a len (fun x => x ^^^ i)

/-- xoriB64 (R218). -/
def execXoriB64 (d a : BitVec 6) (imm : BitVec 14) (s : State) : Host.Outcome State Fault Refusal :=
  scalarWord s (opXoriB64 d a (imm14 imm) 4)

def opMuliS64 (d a : BitVec 6) (i : W64) (len : Nat) : Dev → Nat → Warp → Dev := siWord d a len (fun x => x * i)

/-- muliS64 (R218). -/
def execMuliS64 (d a : BitVec 6) (imm : BitVec 14) (s : State) : Host.Outcome State Fault Refusal :=
  scalarWord s (opMuliS64 d a (imm14 imm) 4)

def opCmpiEqS64 (d a : BitVec 6) (i : W64) (len : Nat) : Dev → Nat → Warp → Dev := siCmp d a len (fun x => x == i)

/-- cmpiEqS64 (R218). -/
def execCmpiEqS64 (d a : BitVec 6) (imm : BitVec 14) (s : State) : Host.Outcome State Fault Refusal :=
  scalarWord s (opCmpiEqS64 d a (imm14 imm) 4)

def opCmpiLtS64 (d a : BitVec 6) (i : W64) (len : Nat) : Dev → Nat → Warp → Dev := siCmp d a len (fun x => x.slt i)

/-- cmpiLtS64 (R218). -/
def execCmpiLtS64 (d a : BitVec 6) (imm : BitVec 14) (s : State) : Host.Outcome State Fault Refusal :=
  scalarWord s (opCmpiLtS64 d a (imm14 imm) 4)

def opCmpiLtN64 (d a : BitVec 6) (i : W64) (len : Nat) : Dev → Nat → Warp → Dev := siCmp d a len (fun x => x.ult i)

/-- cmpiLtN64 (R218). -/
def execCmpiLtN64 (d a : BitVec 6) (imm : BitVec 14) (s : State) : Host.Outcome State Fault Refusal :=
  scalarWord s (opCmpiLtN64 d a (imm14 imm) 4)

/-- shlB64Imm (R218): the amount is imm[5:0]; imm[13:6] is reserved (R56). -/
def execShlB64Imm (d a : BitVec 6) (imm : BitVec 14) (s : State) : Host.Outcome State Fault Refusal :=
  scalarWord s (checked [ckZero (decide (imm.toNat < 64))] (siWord d a 4 (fun x => let k := imm.toNat; x <<< k)))

/-- shrB64Imm (R218): the amount is imm[5:0]; imm[13:6] is reserved (R56). -/
def execShrB64Imm (d a : BitVec 6) (imm : BitVec 14) (s : State) : Host.Outcome State Fault Refusal :=
  scalarWord s (checked [ckZero (decide (imm.toNat < 64))] (siWord d a 4 (fun x => let k := imm.toNat; x >>> k)))

/-- sraB64Imm (R218): the amount is imm[5:0]; imm[13:6] is reserved (R56). -/
def execSraB64Imm (d a : BitVec 6) (imm : BitVec 14) (s : State) : Host.Outcome State Fault Refusal :=
  scalarWord s (checked [ckZero (decide (imm.toNat < 64))] (siWord d a 4 (fun x => let k := imm.toNat; x.sshiftRight k)))

/-! ### Branches -/

/-- Whether an SB word's predicate field lets it branch (R32). -/
def sbTaken (p : BitVec 4) (w : Warp) : Bool := w.qp (p.extractLsb' 0 3).toNat != p.getLsbD 3

/-- The target of an SB word (R32). -/
def sbTarget (o : BitVec 22) (w : Warp) : W64 := w.spc + (o.signExtend 64 <<< 2)

/-- B (R32, R220). -/
def execB (p : BitVec 4) (o : BitVec 22) (s : State) : Host.Outcome State Fault Refusal :=
  scalarWord s (fun dv k w => dv.setWarp k (w.goto dv.clock (if sbTaken p w then sbTarget o w else w.spc + 4)))

/-- CALL (R220): a taken call writes the address after it into s63. -/
def execCall (p : BitVec 4) (o : BitVec 22) (s : State) : Host.Outcome State Fault Refusal :=
  scalarWord s (interlock [63] (fun dv k w =>
    if sbTaken p w then dv.setWarp k ((w.setS 63 (w.spc + 4)).goto dv.clock (sbTarget o w)) else done dv k w 4))

/-- RET (R220). -/
def execRet (d a b : BitVec 6) (s : State) : Host.Outcome State Fault Refusal :=
  scalarWord s (checked [ckZero (d == 0#6 && b == 0#6)] (interlock [a.toNat] (fun dv k w =>
    let t := w.s a.toNat
    if bits t 1 0 ≠ 0 then scalarTrap dv k w 4 .align t [] else dv.setWarp k (w.goto dv.clock t))))

/-- LAND (R223): no state changes; d and a[5:2] are reserved. -/
def execLand (d a : BitVec 6) (_imm : BitVec 14) (s : State) : Host.Outcome State Fault Refusal :=
  scalarWord s (checked [ckZero (d == 0#6 && decide (a.toNat < 4))] (fun dv k w => done dv k w 4))

/-- UNASSIGNED_SCALAR_WORD (R29, R55, R60): illegal-instruction at the major, or at the minor or condition. -/
def execUnassignedScalarWord (x : W32) (s : State) : Host.Outcome State Fault Refusal :=
  scalarWord s (fun dv k w =>
    illegal dv k w (.illInst, if [0, 1, 2, 3, 34, 35, 36, 37].contains (x.extractLsb' 26 6).toNat then 1 else 0))

end Sys2Proof.Machine
end

