-- ==== Sys2Proof/Machine/ScalarMem.lean ====
section
/-!
DEFINITION. Scalar loads and stores (R224, R225), their returns, lx (R214, R215), jtab (R222) and the prefix pair (R30, R31).
-/
namespace Sys2Proof.Machine

/-- Access size in bytes of a load or store major (R54). -/
def accessSize (major : Nat) : Nat :=
  match major with
  | 16 | 17 | 24 => 1
  | 18 | 19 | 25 => 2
  | 20 | 21 | 26 => 4
  | _ => 8

/-- The loaded value extended into s(d) (R224). -/
def loadExt (major v : Nat) : W64 :=
  match major with
  | 16 => (BitVec.ofNat 8 v).signExtend 64
  | 18 => (BitVec.ofNat 16 v).signExtend 64
  | 20 => (BitVec.ofNat 32 v).signExtend 64
  | _ => BitVec.ofNat 64 v

/-- A scalar load of the given major (R224): the value is fixed at L1 or at the pan, and SCALAR_LOAD_RETURN writes it. -/
def scalarLoad (major : Nat) (dst a : BitVec 6) (imm : W64) (len : Nat) : Dev → Nat → Warp → Dev :=
  interlock [dst.toNat, a.toNat] (fun d k w =>
    let ea := w.s a.toNat + imm
    let n := accessSize major
    if ea.toNat % n ≠ 0 then scalarTrap d k w len .align ea []
    else withVa d k w ea (fun va => withXlate d k w va .read 0 (fun pa l =>
      if mustWait d k w [pa / 64] || w.full .g then stall d k w
      else
        let (d, u) := loadSub d k w.cluster (pa / 64) (if l.kind = 1 then 3 else 0)
        let id := d.nextId
        let op := { MemOp.new k w (d.partOf w) .scalar .g (.sload major dst.toNat) w.spc.toNat 0 with
          addr := [(0, pa)], subs := [(pa / 64, { u with pages := [va / 65536] })], pages := [va / 65536] }
        let w := { w.raiseOut .g id with pendS := w.pendS ++ [(id, dst.toNat)] }
        let d := done { d with nextId := id + 1, ops := d.ops.set id op } k w len
        if u.st = .sent then send d w.cluster [(id, pa / 64)] else d)))

/-- A scalar store of the given major (R224): the cluster's L1 copy changes at issue (R306), the pan's when performed. -/
def scalarStore (major : Nat) (src a : BitVec 6) (imm : W64) (len : Nat) : Dev → Nat → Warp → Dev :=
  interlock [src.toNat, a.toNat] (fun d k w =>
    let ea := w.s a.toNat + imm
    let n := accessSize major
    if ea.toNat % n ≠ 0 then scalarTrap d k w len .align ea []
    else withVa d k w ea (fun va => withXlate d k w va .write 1 (fun pa _ =>
      if mustWait d k w [pa / 64] || w.full .g then stall d k w
      else
        let bs := storeBytes (pa % 64) (w.s src.toNat).toNat n
        let id := d.nextId
        let op := { MemOp.new k w (d.partOf w) .scalar .g .sstore w.spc.toNat 0 with
          addr := [(0, pa)], subs := [(pa / 64, { Sub.new (pa / 64) (.store bs) with pages := [va / 65536] })], pages := [va / 65536] }
        let w := { w.raiseOut .g id with acks := w.acks + (if isPeer pa || isHost pa then 1 else 0) }
        let d := done (l1Store { d with nextId := id + 1, ops := d.ops.set id op } w.cluster (pa / 64) 0 bs) k w len
        send d w.cluster [(id, pa / 64)])))

/-- ldS8 (R224). -/
def execLdS8 (d a : BitVec 6) (imm : BitVec 14) (s : State) : Host.Outcome State Fault Refusal :=
  scalarWord s (scalarLoad 16 d a (imm14 imm) 4)

/-- ldN8 (R224). -/
def execLdN8 (d a : BitVec 6) (imm : BitVec 14) (s : State) : Host.Outcome State Fault Refusal :=
  scalarWord s (scalarLoad 17 d a (imm14 imm) 4)

/-- ldS16 (R224). -/
def execLdS16 (d a : BitVec 6) (imm : BitVec 14) (s : State) : Host.Outcome State Fault Refusal :=
  scalarWord s (scalarLoad 18 d a (imm14 imm) 4)

/-- ldN16 (R224). -/
def execLdN16 (d a : BitVec 6) (imm : BitVec 14) (s : State) : Host.Outcome State Fault Refusal :=
  scalarWord s (scalarLoad 19 d a (imm14 imm) 4)

/-- ldS32 (R224). -/
def execLdS32 (d a : BitVec 6) (imm : BitVec 14) (s : State) : Host.Outcome State Fault Refusal :=
  scalarWord s (scalarLoad 20 d a (imm14 imm) 4)

/-- ldN32 (R224). -/
def execLdN32 (d a : BitVec 6) (imm : BitVec 14) (s : State) : Host.Outcome State Fault Refusal :=
  scalarWord s (scalarLoad 21 d a (imm14 imm) 4)

/-- ldB64 (R224). -/
def execLdB64 (d a : BitVec 6) (imm : BitVec 14) (s : State) : Host.Outcome State Fault Refusal :=
  scalarWord s (scalarLoad 22 d a (imm14 imm) 4)

/-- stB8 (R224). -/
def execStB8 (d a : BitVec 6) (imm : BitVec 14) (s : State) : Host.Outcome State Fault Refusal :=
  scalarWord s (scalarStore 24 d a (imm14 imm) 4)

/-- stB16 (R224). -/
def execStB16 (d a : BitVec 6) (imm : BitVec 14) (s : State) : Host.Outcome State Fault Refusal :=
  scalarWord s (scalarStore 25 d a (imm14 imm) 4)

/-- stB32 (R224). -/
def execStB32 (d a : BitVec 6) (imm : BitVec 14) (s : State) : Host.Outcome State Fault Refusal :=
  scalarWord s (scalarStore 26 d a (imm14 imm) 4)

/-- stB64 (R224). -/
def execStB64 (d a : BitVec 6) (imm : BitVec 14) (s : State) : Host.Outcome State Fault Refusal :=
  scalarWord s (scalarStore 27 d a (imm14 imm) 4)

/-- Scalar registers that an operation holds pending become readable. -/
def Warp.release (w : Warp) (id : Nat) : Warp :=
  { w with pendS := w.pendS.filter (fun x => x.1 != id), pendV := w.pendV.filter (fun x => x.1 != id) }

/-- Takes a trap of RESUME fate whose word has already executed: neither stream moves (R385). -/
def lateTrap (d : Dev) (k : Nat) (o : MemOp) (cls : Cls) (lmask : Mask) (aux : W64) : Dev :=
  match d.warps.get? k with
  | some w => takeTrap d k w o.stream cls o.waddr o.block lmask aux []
  | none => d

/-- SCALAR_LOAD_RETURN (R224, R225, R196): writes s(d) and lowers G; poison writes 0 and takes the data-error trap. The lines that a scalar
word waits for come back the same way. -/
def scalarLoadReturnD (id : Nat) (d : Dev) : Dev :=
  match d.ops.get? id with
  | none => d
  | some o =>
    match o.kind, o.subs with
    | .sload major dst, (_, u) :: _ =>
      if u.st ≠ .performed || !replyDue d o u then d
      else
        let pa := o.addr.getD 0 0
        let n := accessSize major
        let bad := u.poison.getLsbD (pa % 64 / 16)
        let v := if bad then 0 else loadExt major (lineBytes u.data (pa % 64) n)
        let d := installSub { d with ops := d.ops.erase id } o.cluster u
        let d := d.modWarp o.warp (fun w => ((w.setS dst v).release id).returned .g id)
        if bad then lateTrap d o.warp o .dataErr 0 (BitVec.ofNat 64 (pa / 16 * 16)) else d
    | .fetch false, _ => fetchReturn id false o d
    | _, _ => d

def execScalarLoadReturn (id : Nat) (s : State) : Host.Outcome State Fault Refusal := eventStep s (scalarLoadReturnD id)

/-! ### lx -/

/-- LX (R214, R215). -/
def lxWord (n a : BitVec 6) (imm : W64) (len : Nat) (d : Dev) (k : Nat) (w : Warp) : Dev :=
  if !w.pendS.isEmpty || 16 ≤ w.queue.length then stall d k w
  else
    let lcb := BitVec.ofNat 64 (((d.nestOf w).map Nest.lcb).getD 0)
    let base := lcb + (w.s a.toNat + imm) * 4
    withVa d k w base (fun va =>
      let last := va + 12 * (n.toNat + 1) - 1
      withXlate d k w va .exec 3 (fun _ l =>
        let go := fun (xs : List (Nat × XRes)) =>
          let b : Block := ⟨va, n.toNat + 1, w.sregs, w.nmode, w.lanes, w.valloc, (va / 65536, .leaf l) :: xs, false⟩
          done d k { w with queue := w.queue ++ [b], lready := if w.queue.isEmpty then Nat.max w.lready (d.clock + 1) else w.lready } len
        if last / 65536 = va / 65536 then go []
        else if 2 ^ 48 ≤ last then protFault d k w .nonCanon
        else withXlate d k w last .exec 3 (fun _ l2 => go [(last / 65536, .leaf l2)])))

def execLx (d a : BitVec 6) (imm : BitVec 14) (s : State) : Host.Outcome State Fault Refusal :=
  scalarWord s (lxWord d a (imm14 imm) 4)

/-! ### jtab -/

/-- An address lies in the scalar code section of the warp's nest (R32). -/
def inCode (d : Dev) (w : Warp) (a : W64) : Bool :=
  match d.nestOf w with
  | some n => n.scb ≤ a.toNat && a.toNat < n.scb + n.sclen
  | none => false

/-- JTAB (R222): its two table reads are scalar loads that complete before it jumps. -/
def execJtab (f a b : BitVec 6) (s : State) : Host.Outcome State Fault Refusal :=
  scalarWord s (checked [ckZero (f == 0#6)] (interlock [a.toNat, b.toNat] (fun d k w =>
    let t := w.s b.toNat
    let i := w.s a.toNat
    if t.toNat % 8 ≠ 0 then scalarTrap d k w 4 .align t []
    else withVa d k w t (fun tv => withLoad true true d k w 4 tv 8 (fun h =>
      if h / 2 ^ 16 % 2 ^ 16 ≠ 0 then illegal d k w (.illOpnd, 6)
      else if h / 2 ^ 32 ≤ i.toNat then scalarTrap d k w 4 .jtBound i []
      else withVa d k w (t + 8 + 4 * i) (fun ev => withLoad true true d k w 4 ev 4 (fun e =>
        let target := BitVec.ofNat 64 (((d.nestOf w).map Nest.scb).getD 0 + 4 * e)
        if !inCode d w target then protFault d k w .execProt
        else withVa d k w target (fun v => withXlate d k w v .exec 3 (fun pa _ =>
          let wd := devReadN d pa 4
          if wd / 2 ^ 26 ≠ 29 ∨ wd % 2 ^ 16 ≠ h % 2 ^ 16 then scalarTrap d k w 4 .jtLand target []
          else d.setWarp k (w.goto d.clock target))))))))))

/-! ### The prefix pair -/

/-- The pair as one instruction (R30): `imm` is the 40-bit immediate, sign-extended. -/
def pairWord (major : Nat) (d a : BitVec 6) (i : W64) : Option (Dev → Nat → Warp → Dev) :=
  match major with
  | 4 => some (opAddiS64 d a i 8)
  | 5 => some (opAddiS32 d a i 8)
  | 6 => some (opAndiB64 d a i 8)
  | 7 => some (opOriB64 d a i 8)
  | 8 => some (opXoriB64 d a i 8)
  | 12 => some (opMuliS64 d a i 8)
  | 13 => some (opCmpiEqS64 d a i 8)
  | 14 => some (opCmpiLtS64 d a i 8)
  | 15 => some (opCmpiLtN64 d a i 8)
  | 28 => some (lxWord d a i 8)
  | m =>
    if 16 ≤ m ∧ m ≤ 22 then some (scalarLoad m d a i 8)
    else if 24 ≤ m ∧ m ≤ 27 then some (scalarStore m d a i 8)
    else none

/-- The 40-bit immediate of a pair (R30). -/
def imm40 (h : BitVec 26) (next : W32) : W64 := (h ++ next.extractLsb' 0 14).signExtend 64

/-- PREFIX (R30, R31, R56): a prefix before a word that takes none is an illegal instruction at the prefix. -/
def execPfx (h : BitVec 26) (next : W32) (s : State) : Host.Outcome State Fault Refusal :=
  scalarWord s (fun d k w =>
    match pairWord (next.extractLsb' 26 6).toNat (next.extractLsb' 20 6) (next.extractLsb' 14 6) (imm40 h next) with
    | some f => f d k w
    | none => illegal d k w (.illInst, 0))

end Sys2Proof.Machine
end

