-- ==== Sys2Proof/Machine/LaneMem.lean ====
section
/-!
DEFINITION. Lane loads, stores and prefetch (R266 to R272), the replay of a word that met NOTMAPPED (R81), and the steps
LANE_LOAD_RETURN, STORE_ACK, FAR_END_ACK and L1_AGE_OUT.
-/
namespace Sys2Proof.Machine

/-! ### The addresses of a lane word -/

/-- One lane's access after translation: the element's physical address (a nibble address for 4-bit types), its page's KIND
and, for a virtual address, its 64 KiB page. -/
structure Acc where
  lane : Nat
  elem : Nat
  pa : Nat
  kind : Nat
  page : Option Nat
  deriving DecidableEq, Repr

/-- What translation answers for one lane. -/
inductive LaneX where
  | hit (a : Acc)
  | miss (page : Nat)
  | fault (c : FCode)
  | unmapped (page : Nat)
  deriving DecidableEq, Repr

/-- Lanes in which the word is to act: those of a replay, else those that its guards admit (R40, R81). -/
def laneOn (w : Warp) (b : Block) (f : LaneWord) : Mask :=
  match w.lpark with
  | .replay m _ _ => m
  | _ => execMask w b f

/-- The element size in bytes; 4-bit elements touch one byte. -/
def elemSize (t : Nat) : Nat := if tyW t ≤ 8 then 1 else tyW t / 8

/-- The byte address of an element (R268). -/
def elemByte (t : Nat) (a : W64) : W64 := if tyW t = 4 then a >>> 1 else a

/-- The tag checks of R93 for an access of n bytes. -/
def tagFault (d : Dev) (p : Nat) (ok : Bool) (part pa n : Nat) : Option FCode :=
  if !ok || part != p then some .tagMisuse
  else if isOutside pa || !inWindows d p pa n then some .outside else none

/-- Step 2 of R267: the fault of an address's form. -/
def formFault (d : Dev) (p : Nat) (tagOk : Bool) (n : Nat) (a : W64) : Option FCode :=
  match aform a with
  | .va _ => none
  | .bad => some .nonCanon
  | .tagged part pa => tagFault d p tagOk part pa n

/-- Translates one lane's byte address (R267 steps 3 and 4). -/
def laneX (d : Dev) (w : Warp) (need : Need) (t lane : Nat) (a : W64) : LaneX :=
  let nib := fun (pa : Nat) => if tyW t = 4 then 2 * pa + a.toNat % 2 else pa
  match aform (elemByte t a) with
  | .bad => .fault .nonCanon
  | .tagged _ pa => .hit ⟨lane, nib pa, pa, 0, none⟩
  | .va va =>
    match xlate d w.xl w.cluster (d.partOf w) va need with
    | .hit pa l => .hit ⟨lane, nib pa, pa, l.kind, some (va / 65536)⟩
    | .miss => .miss (va / 65536)
    | .fault .notMapped => .unmapped (va / 65536)
    | .fault c => .fault c

/-- The first fault of a list of lanes and the mask of those that fault. -/
def faultsOf (l : List (Nat × Option FCode)) : Option (FCode × Mask) :=
  (l.findSome? (·.2)).map (fun c => (c, maskOf ((l.filter (·.2.isSome)).map (·.1))))

/-- The checks of R267 on the executing lanes: alignment to `align`, form, protection; then f with the lanes that may go on and those
that met NOTMAPPED with their pages. Misses wait for their walks. -/
def laneAddrs (need : Need) (tagOk : Bool) (t align : Nat) (on : List (Nat × W64)) (d : Dev) (k : Nat) (w : Warp) (b : Block)
    (f : List Acc → List (Nat × Nat) → Dev) : Dev :=
  let n := elemSize t
  match on.find? (fun e => e.2.toNat % align != 0) with
  | some e => laneTrap d k w b .align (maskOf ((on.filter (fun e => e.2.toNat % align != 0)).map (·.1))) e.2
  | none =>
    match faultsOf (on.map (fun e => (e.1, formFault d (d.partOf w) tagOk n (elemByte t e.2)))) with
    | some (c, m) => laneTrap d k w b .prot m (BitVec.ofNat 64 c.num)
    | none =>
      let xs := on.map (fun e => (e.1, laneX d w need t e.1 e.2))
      let misses := distinct (xs.filterMap (fun e => match e.2 with
        | .miss p => some p
        | _ => none))
      if !misses.isEmpty then
        laneStall (misses.foldl (fun d p => addMiss d (w.cluster / 64) (d.partOf w) (p * 65536) (.lanes k)) d) k w
      else
        match faultsOf (xs.map (fun e => (e.1, match e.2 with
          | .fault c => some c
          | _ => none))) with
        | some (c, m) => laneTrap d k w b .prot m (BitVec.ofNat 64 c.num)
        | none =>
          f (xs.filterMap (fun e => match e.2 with
              | .hit a => some a
              | _ => none))
            (xs.filterMap (fun e => match e.2 with
              | .unmapped p => some (e.1, p)
              | _ => none))

/-! ### Issuing a memory word -/

/-- One fault record per distinct page (R81); answers their sequence numbers. -/
def addFaults (d : Dev) (w : Warp) (kind : Nat) (pages : List Nat) : Dev × List Nat :=
  pages.foldl (fun (a : Dev × List Nat) p =>
    let r := addFault a.1 (d.partOf w) (p * 65536) 0 0 .notMapped kind w.cluster w.wslot
    (r.1, a.2 ++ [r.2])) (d, [])

/-- A key for a request to a line that no request of the operation has. -/
def freshKey (subs : Tab Sub) (line : Nat) : Nat := line + 2 ^ 50 * (subs.filter (fun e => e.2.line == line)).length

/-- Every request and lane of the operation has completed as far as its warp is concerned. -/
def MemOp.complete (o : MemOp) : Bool :=
  o.left == 0#64 && o.subs.all (fun e => e.2.settled) && o.remotes.all (fun e => e.2.back) && o.waits.isEmpty

/-- No acknowledgement is outstanding either. -/
def MemOp.finished (o : MemOp) : Bool := o.subs.all (fun e => e.2.st == .back)

/-- The trap that an operation raises once every lane has returned: lowest lane first (R140, R271, R478). -/
def lateTraps (d : Dev) (o : MemOp) : Dev :=
  let lowest := fun (l : List (Nat × W64)) => (List.range 64).findSome? (fun k => (l.find? (fun e => e.1 == k)).map (·.2))
  let trap := fun (d : Dev) (c : Cls) (l : List (Nat × W64)) =>
    match lowest l with
    | some a => lateTrap d o.warp o c (maskOf (l.map (·.1))) a
    | none => d
  match o.kind with
  | .atom _ _ _ _ true => trap d .routine o.failed
  | _ => trap d .dataErr o.bad

/-- Ends an operation that has completed: its registers become readable and its counter falls (R196). -/
def completeOp (d : Dev) (id : Nat) : Dev :=
  match d.ops.get? id with
  | none => d
  | some o =>
    if !o.complete then d
    else
      let d := d.modWarp o.warp (fun w => (w.release id).returned o.path id)
      let d := if o.finished then { d with ops := d.ops.erase id } else d
      lateTraps d o

/-- Inserts a request by its rank. -/
def insertByRank (rank : Nat → Nat) (q : Nat × Nat) : List (Nat × Nat) → List (Nat × Nat)
  | [] => [q]
  | x :: l => if rank q.2 < rank x.2 then q :: x :: l else x :: insertByRank rank q l

/-- The order in which the requests of a word leave: by lowest lane (R459), and the invocations of an atom in any order (R25, log 36). -/
def sendOrder (n : Nat) (o : MemOp) (keys : List (Nat × Nat)) : List (Nat × Nat) :=
  match o.kind with
  | .atom .. => keys.foldr (insertByRank (Config.laneRank n)) []
  | _ => keys.foldr (insertByRank (fun key => ((lanesOn (o.subs.getD key (Sub.new 0 .load)).lanes).head?).getD 64)) []

/-- Issues a memory word, or its replay: the requests join the operation, faulting lanes get fault records and park the lane
stream (R81), and the rest of the word is on its way. `regs` wait for its results. A word that executes in no lane makes its latch valid at
once (R43); after a replay the latch holds 0 in the lanes of the first issue, whenever their data return (R270). -/
def issueMem (path : Path) (kind : OpKind) (hint : Nat) (recKind : Nat) (regs : List Nat) (all : Mask) (mk : MemOp → MemOp)
    (unm : List (Nat × Nat)) (d : Dev) (k : Nat) (w : Warp) (b : Block) (f : LaneWord) : Dev :=
  let d := match w.lpark with
    | .replay .. => dropLatches d w.cluster w.pipe
    | _ => d
  let epoch := (d.pipe w.cluster w.pipe).epoch
  let old := match w.lpark with
    | .replay _ o _ => (d.ops.get? o).map (fun x => (o, x))
    | _ => none
  let (id, o, w, d) := match old with
    | some (i, o) => (i, { o with epoch := epoch, stale := ~~~ all }, w, d)
    | none =>
      (d.nextId, { MemOp.new k w (d.partOf w) .lane path kind (laneAddr w b) b.base with hint := hint, lanes := all, epoch := epoch },
        { w.raiseOut path d.nextId with pendV := w.pendV ++ regs.map (fun r => (d.nextId, r)) },
        { (match kind.latch with
            | some l =>
              let d := claimLatch d k l all
              if all = 0 then latchWrite d w.cluster w.pipe l [] else d
            | none => d) with nextId := d.nextId + 1 })
  let before := o.subs.keys
  let o := { mk o with left := maskOf (unm.map (·.1)) }
  let d := { d with ops := d.ops.set id o }
  let d := if unm.isEmpty then laneNext d k w b f
    else
      let (d, seqs) := addFaults d w recKind (distinct (unm.map (·.2)))
      (leavePipe d w).setWarp k { w with lpark := .replay o.left id seqs, xl := [], lready := d.clock + 1 }
  let keys := (o.subs.filter (fun e => !before.contains e.1 && e.2.st == .sent)).map (fun e => (id, e.1))
  completeOp (send d w.cluster (sendOrder d.free o keys)) id

/-- The word may not access these lines yet, or its counter is full (R142, R143, R196). -/
def memWait (d : Dev) (k : Nat) (w : Warp) (path : Path) (lines : List Nat) : Bool :=
  mustWait d k w lines || (w.full path && (match w.lpark with
    | .replay .. => false
    | _ => true))

/-- The hint of an access: KIND 1 makes it 3 (R73, R266). -/
def pageHint (f : LaneWord) (kind : Nat) : Nat := if kind = 1 then 3 else f.hint.toNat

/-- The addresses of the executing lanes. -/
def laneAddrList (c : Lcx) (code : Nat) (on : Mask) : List (Nat × W64) :=
  (lanesOn on).map (fun i => (i, BitVec.ofNat 64 (c.read code 7 i)))

def pagesOf (l : List Acc) : List Nat := distinct (l.filterMap (·.page))

/-- Adds one load request per line of the lanes (R269). -/
def addLoads (d : Dev) (k c : Nat) (f : LaneWord) (accs : List Acc) : Dev × List Sub :=
  (distinct (accs.map (fun a => a.pa / 64))).foldl (fun (r : Dev × List Sub) line =>
    let mine := accs.filter (fun a => a.pa / 64 == line)
    let (d, u) := loadSub r.1 k c line (pageHint f ((mine.map (·.kind)).headD 0))
    (d, r.2 ++ [{ u with lanes := maskOf (mine.map (·.lane)), pages := pagesOf mine }])) (d, [])

def withSubs (o : MemOp) (l : List Sub) : MemOp :=
  { o with subs := l.foldl (fun t u => t.set (freshKey t u.line) u) o.subs }

def withAddrs (o : MemOp) (accs : List Acc) : MemOp :=
  { o with addr := accs.foldl (fun t a => t.set a.lane a.elem) o.addr, pages := o.pages ++ pagesOf accs }

def tyMem (t : Nat) : Bool := t ≤ 14

/-- LD (R266 to R271). -/
def ldWord (f : LaneWord) : Dev → Nat → Warp → Block → Dev :=
  let t := f.ty.toNat
  let row : LaneRow := ⟨tyMem, mod0, true, .dst t, .src 7, .unused, .unused, .unused⟩
  laneChecked row f true false (fun d k w b =>
    let on := laneOn w b f
    laneAddrs .read true t (elemSize t) (laneAddrList (lcx d w b) f.s0.toNat on) d k w b (fun accs unm =>
      if memWait d k w .g (accs.map (fun a => a.pa / 64)) then laneStall d k w
      else
        let (d, subs) := addLoads d k w.cluster f accs
        issueMem .g (.load t f.dst.toNat f.lsel.toNat (f.nowb == 1)) f.hint.toNat 0
          ((row.dRole f).regs f.dst.toNat ++ [1536 + f.lsel.toNat]) on
          (fun o => withAddrs (withSubs o subs) accs) unm d k w b f))

def execLaneLd (f : LaneWord) (s : State) : Host.Outcome State Fault Refusal := laneWord s (ldWord f)

/-- The bytes that one lane stores, in its line (R12, R268). -/
def elemBytes (t elem v : Nat) : List (Nat × Byte × Byte) :=
  if tyW t = 4 then
    (if elem % 2 = 0 then [(elem / 2 % 64, BitVec.ofNat 8 (v % 16), 0x0F)] else [(elem / 2 % 64, BitVec.ofNat 8 (v % 16 * 16), 0xF0)])
  else storeBytes (elem % 64) v (elemSize t)

/-- One store request per line, the bytes of its lanes in lane order (R269). -/
def storeSubs (t : Nat) (f : LaneWord) (accs : List Acc) (data : Nat → Nat) : List Sub :=
  (distinct (accs.map (fun a => a.pa / 64))).map (fun line =>
    let mine := accs.filter (fun a => a.pa / 64 == line)
    { Sub.new line (.store (mine.flatMap (fun a => elemBytes t a.elem (data a.lane)))) with
      lanes := maskOf (mine.map (·.lane)), hint := pageHint f ((mine.map (·.kind)).headD 0), pages := pagesOf mine })

/-- The cluster's L1 copies change at issue, and hint 5 drops them (R48, R306). -/
def storeL1 (d : Dev) (c : Nat) (u : Sub) : Dev :=
  match u.act with
  | .store bs =>
    let d := l1Store d c u.line u.hint bs
    if u.hint = 5 then l1Drop d c u.line else d
  | _ => d

/-- Requests that a far end will acknowledge (R315). -/
def farCount (l : List Sub) : Nat := (l.filter (fun u => isPeer (u.line * 64) || isHost (u.line * 64))).length

/-- ST (R266 to R269). -/
def stWord (f : LaneWord) : Dev → Nat → Warp → Block → Dev :=
  let t := f.ty.toNat
  laneChecked ⟨tyMem, mod0, true, .unused, .src 7, .src t, .unused, .unused⟩ f true false (fun d k w b =>
    let c := lcx d w b
    let on := laneOn w b f
    laneAddrs .write false t (elemSize t) (laneAddrList c f.s0.toNat on) d k w b (fun accs unm =>
      if memWait d k w .g (accs.map (fun a => a.pa / 64)) then laneStall d k w
      else
        let subs := storeSubs t f accs (c.read f.s1.toNat t)
        let d := subs.foldl (fun d u => storeL1 d w.cluster u) d
        issueMem .g .store f.hint.toNat 1 [] on (fun o => withAddrs (withSubs o subs) accs) unm d k
          { w with acks := w.acks + farCount subs } b f))

def execLaneSt (f : LaneWord) (s : State) : Host.Outcome State Fault Refusal := laneWord s (stWord f)

/-- The requests of a prefetch: every line is asked of its pan, which fills it; hints 3 to 5 and KIND 1 install nothing in L1, and hint 5
drops the copy there (R48, R272). -/
def prefetchSubs (f : LaneWord) (accs : List Acc) : List Sub :=
  (distinct (accs.map (fun a => a.pa / 64))).map (fun line =>
    let mine := accs.filter (fun a => a.pa / 64 == line)
    let hint := pageHint f ((mine.map (·.kind)).headD 0)
    let panOnly := decide (3 ≤ hint ∧ hint ≤ 5)
    { Sub.new line .load with
      lanes := maskOf (mine.map (·.lane)), hint := if panOnly then 3 else hint, noInstall := panOnly, pages := pagesOf mine })

/-- PF (R272): lanes that cannot be fetched are dropped. The word has no type, so no address of it is misaligned (log 109). -/
def pfWord (f : LaneWord) : Dev → Nat → Warp → Block → Dev :=
  laneChecked ⟨fun t => t == 15, mod0, true, .unused, .src 7, .unused, .unused, .unused⟩ f true false (fun d k w b =>
    let on := laneOn w b f
    let l := (laneAddrList (lcx d w b) f.s0.toNat on).filter (fun e => formFault d (d.partOf w) true 1 e.2 == none)
    let xs := l.map (fun e => laneX d w .read 0 e.1 e.2)
    let misses := distinct (xs.filterMap (fun e => match e with
      | .miss p => some p
      | _ => none))
    if !misses.isEmpty then
      laneStall (misses.foldl (fun d p => addMiss d (w.cluster / 64) (d.partOf w) (p * 65536) (.lanes k)) d) k w
    else
      let accs := xs.filterMap (fun e => match e with
        | .hit a => some a
        | _ => none)
      if memWait d k w .g (accs.map (fun a => a.pa / 64)) then laneStall d k w
      else
        let subs := prefetchSubs f accs
        let drops := accs.filter (fun a => pageHint f a.kind == 5)
        let d := drops.foldl (fun d a => l1Drop d w.cluster (a.pa / 64)) d
        issueMem .g .pf f.hint.toNat 0 [] on (fun o => withAddrs (withSubs o subs) accs) [] d k w b f)

def execPf (f : LaneWord) (s : State) : Host.Outcome State Fault Refusal := laneWord s (pfWord f)

/-! ### Returns -/

/-- The element that a lane reads from a line (R12, R268). -/
def elemOf (t elem : Nat) (data : Line) : Nat :=
  if tyW t = 4 then (lineByte data (elem / 2 % 64)).toNat / (if elem % 2 = 0 then 1 else 16) % 16
  else lineBytes data (elem % 64) (elemSize t)

/-- The sector of a lane's element in its line. -/
def elemSector (t elem : Nat) : Nat := (if tyW t = 4 then elem / 2 else elem) % 64 / 16

/-- Writes the lanes' results of a returned operation: registers and latch (R35, R43, R270). -/
def writeBack (d : Dev) (o : MemOp) (t dst lsel : Nat) (nowb : Bool) (res : List (Nat × Nat)) : Dev :=
  match d.warps.get? o.warp with
  | none => d
  | some w =>
    let d := if nowb then d else d.setWarp o.warp (w.setVT t dst res)
    if (d.pipe w.cluster w.pipe).epoch ≠ o.epoch then d
    else latchWrite d w.cluster w.pipe lsel ((res.filter (fun e => !o.stale.getLsbD e.1)).map (fun e => (e.1, image t e.2)))

/-- LANE_LOAD_RETURN (R269 to R272): a line's data reach the cluster. -/
def laneLoadReturnD (id key : Nat) (d : Dev) : Dev :=
  match d.ops.get? id with
  | none => d
  | some o =>
    match o.subs.get? key with
    | none => d
    | some u =>
      if u.st ≠ .performed || !replyDue d o u then d
      else
        let back := fun (o : MemOp) => { o with subs := o.subs.set key { u with st := .back } }
        match o.kind with
        | .load t dst lsel nowb =>
          let lanes := lanesOn u.lanes
          let el := fun (k : Nat) => o.addr.getD k 0
          let bad := lanes.filter (fun k => u.poison.getLsbD (elemSector t (el k)))
          let res := lanes.map (fun k => (k, if bad.contains k then 0 else elemOf t (el k) u.data))
          let o := back { o with bad := o.bad ++ bad.map (fun k =>
            (k, BitVec.ofNat 64 (u.line * 64 + 16 * elemSector t (el k)))) }
          let d := installSub { d with ops := d.ops.set id o } o.cluster u
          completeOp (writeBack d o t dst lsel nowb res) id
        | .pf =>
          let d := { d with ops := d.ops.set id (back o) }
          completeOp (if u.noInstall then d else installSub d o.cluster u) id
        | _ => d

def execLaneLoadReturn (op line : Nat) (s : State) : Host.Outcome State Fault Refusal := eventStep s (laneLoadReturnD op line)

/-- STORE_ACK (R269, R307): a write performed at its pan, or taken by its relay, is acknowledged; status 1 is a write that had no link
(R414), status 2 one that the far end has meanwhile acknowledged. -/
def storeAckD (id key : Nat) (d : Dev) : Dev :=
  match d.ops.get? id with
  | none => d
  | some o =>
    match o.subs.get? key with
    | none => d
    | some u =>
      if u.st ≠ .performed || !(o.kind == .store || o.kind == .sstore || o.kind == .cache) || !replyDue d o u then d
      else
        let st := if (isPeer (u.line * 64) || isHost (u.line * 64)) && u.status == 0 then SubSt.far else .back
        let d := if u.status = 2 then d.modWarp o.warp (fun w => { w with acks := w.acks - 1 }) else d
        let d := { d with ops := d.ops.set id { o with subs := o.subs.set key { u with st := st } } }
        completeOp d id

def execStoreAck (op line : Nat) (s : State) : Host.Outcome State Fault Refusal := eventStep s (storeAckD op line)

/-- The far end acknowledges a write (R315). -/
def farDone (id key : Nat) (d : Dev) : Dev :=
  match d.ops.get? id with
  | none => d
  | some o =>
    match o.subs.get? key with
    | none => d
    | some u =>
      if u.st ≠ .far ∨ !u.settled then d
      else
        let d := d.modWarp o.warp (fun w => { w with acks := w.acks - 1 })
        let o := { o with subs := o.subs.set key { u with st := .back } }
        if o.complete && o.finished then { d with ops := d.ops.erase id } else { d with ops := d.ops.set id o }

/-- FAR_END_ACK (R315): the host interface's acknowledgement; a peer's comes as a message (FLIT_RECEIVE). -/
def farEndAckD (id key : Nat) (d : Dev) : Dev :=
  match (d.ops.get? id).bind (fun o => o.subs.get? key) with
  | some u => if isHost (u.line * 64) then farDone id key d else d
  | none => d

def execFarEndAck (op line : Nat) (s : State) : Host.Outcome State Fault Refusal := eventStep s (farEndAckD op line)

/-- L1_AGE_OUT (R306): a copy filled 2,048 clocks ago leaves. -/
def l1AgeOutD (c line : Nat) (d : Dev) : Dev :=
  match (d.cluster c).l1.get? line with
  | some l =>
    if l.filled + 2048 ≤ d.clock then d.setCluster c { d.cluster c with l1 := (d.cluster c).l1.erase line } else d
  | none => d

def execL1AgeOut (cluster line : Nat) (s : State) : Host.Outcome State Fault Refusal := eventStep s (l1AgeOutD cluster line)

end Sys2Proof.Machine
end

