-- ==== Sys2Proof/Machine/Routine.lean ====
section
/-!
DEFINITION. Line routines: the pan instruction set (R51, R63, R64, R120 to R126), the built-in routines (R134), the image checks
(R127, R128), the routine map (R133), and the invocations `atom`, `satom` and the install `rtinst` (R129 to R143) with ROUTINE_REPLY.
-/
namespace Sys2Proof.Machine

/-! ### Running a routine -/

/-- The working copy of a routine: the rotated line, temporaries, request words, reply, flag, words written, and its failure code. -/
structure Rt where
  w : Tab W32
  x : Tab W32
  a : List W64
  reply : W64
  flag : Bool
  written : List Nat
  fail : Option Nat
  deriving DecidableEq, Repr

/-- A routine word (R51). -/
structure RtWord where
  op : Nat
  d : Nat
  a : Nat
  b : Nat
  imm : Nat
  deriving DecidableEq, Repr

def rtDecode (w : W32) : RtWord :=
  ⟨w.toNat / 2 ^ 26, w.toNat / 2 ^ 21 % 32, w.toNat / 2 ^ 16 % 32, w.toNat / 2 ^ 11 % 32, w.toNat % 2 ^ 11⟩

def RtWord.base (r : RtWord) : Nat := r.op % 32
def RtWord.wide (r : RtWord) : Bool := 32 ≤ r.op

/-- A register read at 32 or 64 bits (R51). -/
def Rt.get (s : Rt) (wide : Bool) (c : Nat) : Nat :=
  let pair := fun (t : Tab W32) (i : Nat) => (t.getD i 0).toNat + (if wide then 2 ^ 32 * (t.getD (i + 1) 0).toNat else 0)
  if c < 16 then pair s.w c
  else if c < 24 then pair s.x (c - 16)
  else if c < 28 then (s.a.getD (c - 24) 0).toNat % 2 ^ (if wide then 64 else 32)
  else 0

/-- A register write (R51, R123). -/
def Rt.put (s : Rt) (wide : Bool) (c v : Nat) : Rt :=
  let pair := fun (t : Tab W32) (i : Nat) =>
    let t := t.set i (BitVec.ofNat 32 v)
    if wide then t.set (i + 1) (BitVec.ofNat 32 (v / 2 ^ 32)) else t
  if c < 16 then { s with w := pair s.w c, written := s.written ++ (if wide then [c, c + 1] else [c]) }
  else if c < 24 then { s with x := pair s.x (c - 16) }
  else if c = 28 then { s with reply := BitVec.ofNat 64 (if wide then v else v % 2 ^ 32) }
  else s

/-- The conditions of R123. -/
def rtCond (c : Nat) (n : Nat) (x y : Nat) : Bool :=
  let sx := (BitVec.ofNat n x).toInt
  let sy := (BitVec.ofNat n y).toInt
  match c with
  | 0 => x == y
  | 1 => x != y
  | 2 => decide (sx < sy)
  | 3 => decide (x < y)
  | 4 => decide (sx ≤ sy)
  | _ => decide (x ≤ y)

/-- One routine word (R123 to R125). -/
def rtStep (r : RtWord) (s : Rt) : Rt :=
  let n := if r.wide then 64 else 32
  let x := s.get r.wide r.a
  let y := s.get r.wide r.b
  let sx := (BitVec.ofNat n x).toInt
  let sy := (BitVec.ofNat n y).toInt
  let put := fun (v : Nat) => s.put r.wide r.d (v % 2 ^ n)
  match r.base with
  | 0 => put x
  | 1 => put (x + y)
  | 2 => put (x + (2 ^ n - y))
  | 3 => put (if sx ≤ sy then x else y)
  | 4 => put (Nat.min x y)
  | 5 => put (if sx ≤ sy then y else x)
  | 6 => put (Nat.max x y)
  | 7 => put (x &&& y)
  | 8 => put (x ||| y)
  | 9 => put (x ^^^ y)
  | 10 => put (x * 2 ^ r.imm)
  | 11 => put (x / 2 ^ r.imm)
  | 12 => put ((sx / 2 ^ r.imm) % 2 ^ n).toNat
  | 13 => put (popCount x n)
  | 14 => put ((BitVec.ofNat 11 r.imm).signExtend n).toNat
  | 15 =>
    let c := rtCond r.imm n x y
    { put (if c then 1 else 0) with flag := c }
  | 16 => put (if s.get r.wide r.d ≠ 0 then x else y)
  | 17 => put (rtAddF32 x y)
  | 18 => put (rtMinF32 x y)
  | 19 => put (rtMaxF32 x y)
  | 20 => put (rtAddBF16 x y)
  | 21 => s.put r.wide 28 x
  | 22 => if s.flag then { s with fail := some r.imm } else s
  | _ => s

/-- The words in order, up to a failure (R122, R125). -/
def rtRun : List W32 → Rt → Rt
  | [], s => s
  | w :: rest, s =>
    let s := rtStep (rtDecode w) s
    if s.fail.isSome then s else rtRun rest s

/-- The start of a run on a line for addressed word o (R120, R121). -/
def rtStart (line : Line) (o : Nat) (a : List W64) : Rt :=
  ⟨(List.range 16).map (fun j => (j, line.extractLsb' (32 * ((j + o) % 16)) 32)), [], a, 0, false, [], none⟩

/-- The line after the commit: the written words rotated back (R120, R145). -/
def rtLine (line : Line) (o : Nat) (s : Rt) : Line :=
  s.written.foldl (fun l j =>
    let at_ := 32 * ((j + o) % 16)
    (l &&& ~~~ ((BitVec.ofNat 512 0xFFFFFFFF) <<< at_)) ||| (((s.w.getD j 0).setWidth 512) <<< at_)) line

/-! ### Built-in routines -/

def rw_ (op d a b imm : Nat) : W32 := BitVec.ofNat 32 (op * 2 ^ 26 + d * 2 ^ 21 + a * 2 ^ 16 + b * 2 ^ 11 + imm)

/-- Old word as the reply, then one operation with a0 on the addressed word. -/
def romOp (op : Nat) : List W32 := [rw_ (if 32 ≤ op then 53 else 21) 0 0 0 0, rw_ op 0 0 24 0]

/-- ROM slots 0 to 31 (R134), in the pan instruction set and at its clock counts. -/
def romCode (slot : Nat) : List W32 :=
  match slot with
  | 0 => [rw_ 21 0 0 0 0, rw_ 0 0 24 0 0]
  | 1 => [rw_ 53 0 0 0 0, rw_ 32 0 24 0 0]
  | 2 => [rw_ 21 0 0 0 0, rw_ 15 16 0 24 0, rw_ 16 16 25 0 0, rw_ 0 0 16 0 0]
  | 3 => [rw_ 53 0 0 0 0, rw_ 47 16 0 24 0, rw_ 48 16 25 0 0, rw_ 32 0 16 0 0]
  | 4 => romOp 1
  | 5 => romOp 33
  | 6 => romOp 17
  | 7 => romOp 20
  | 8 => romOp 3
  | 9 => romOp 4
  | 10 => romOp 35
  | 11 => romOp 36
  | 12 => romOp 5
  | 13 => romOp 6
  | 14 => romOp 37
  | 15 => romOp 38
  | 16 => romOp 7
  | 17 => romOp 39
  | 18 => romOp 8
  | 19 => romOp 40
  | 20 => romOp 9
  | 21 => romOp 41
  | 22 => romOp 18
  | 23 => romOp 19
  | 24 => [rw_ 0 16 0 0 0, rw_ 15 17 24 0 5, rw_ 53 0 16 0 0, rw_ 6 0 0 24 0]
  | 25 => romOp 38
  | 26 => [rw_ 21 0 0 0 0, rw_ 1 16 0 24 0, rw_ 15 17 16 24 3, rw_ 14 18 0 0 2047, rw_ 16 17 18 16 0, rw_ 0 0 17 0 0]
  | 27 => [rw_ 53 0 0 0 0, rw_ 33 16 0 24 0, rw_ 47 18 16 24 3, rw_ 46 20 0 0 2047, rw_ 48 18 20 16 0, rw_ 32 0 18 0 0]
  | 28 => [rw_ 53 0 0 0 0]
  | _ => []

/-! ### Checking an image (R63, R127, R128) -/

/-- Which of D, A, B an operation uses (R63). -/
def rtUses (base : Nat) : Bool × Bool × Bool :=
  match base with
  | 0 | 10 | 11 | 12 | 13 => (true, true, false)
  | 14 => (true, false, false)
  | 21 => (false, true, false)
  | 22 => (false, false, false)
  | _ => (true, true, true)

/-- The opcode is admitted. -/
def rtOpOk (r : RtWord) : Bool :=
  r.base < 23 && !(r.wide && ((17 ≤ r.base && r.base ≤ 20) || r.base == 22))

/-- A used register field: code, alignment, and whether it may be read or written (R51). -/
def rtFieldOk (r : RtWord) (used rd wr : Bool) (c : Nat) : Bool :=
  if !used then c == 0
  else c != 29 && c != 30 && !(wr && 24 ≤ c && c < 28) && !(rd && c == 28) && !(r.wide && c < 24 && c % 2 == 1)

def rtFieldsOk (r : RtWord) : Bool :=
  let u := rtUses r.base
  rtFieldOk r u.1 (r.base == 16) true r.d && rtFieldOk r u.2.1 true false r.a && rtFieldOk r u.2.2 true false r.b

def rtImmOk (r : RtWord) : Bool :=
  match r.base with
  | 10 | 11 | 12 => r.imm < (if r.wide then 64 else 32)
  | 14 => true
  | 15 => r.imm < 6
  | 22 => 1 ≤ r.imm && r.imm < 1024
  | _ => r.imm == 0

def rtLatency (r : RtWord) : Nat := if r.base = 17 ∨ r.base = 20 then 3 else 1

/-- The first failure among the words, as (code, index). -/
def rtWordsCheck : List W32 → Nat → Option (Nat × Nat)
  | [], _ => none
  | w :: rest, i =>
    let r := rtDecode w
    if !rtOpOk r then some (3, i)
    else if !rtFieldsOk r then some (4, i)
    else if !rtImmOk r then some (5, i)
    else rtWordsCheck rest (i + 1)

/-- The first word at which the running clock count passes 46. -/
def rtClockCheck : List W32 → Nat → Nat → Option (Nat × Nat)
  | [], _, _ => none
  | w :: rest, i, n =>
    let n := n + rtLatency (rtDecode w)
    if 46 < n then some (6, i) else rtClockCheck rest (i + 1) n

def hdrLen (h : Nat) : Nat := h % 64
def hdrOrd (h : Nat) : Nat := h / 2 ^ 13 % 4
def hdrScope (h : Nat) : Nat := h / 2 ^ 15 % 8
def hdrRom (h : Nat) : Bool := h / 2 ^ 18 % 2 = 1
def hdrSlot (h : Nat) : Nat := h / 2 ^ 19 % 32

/-- The header of R127. -/
def rtHeaderOk (h : Nat) : Bool :=
  h / 2 ^ 24 == 0 && h / 64 % 128 == 0 && (if hdrRom h then hdrLen h == 0 else 1 ≤ hdrLen h && hdrLen h ≤ 32 && hdrSlot h == 0) &&
    hdrScope h < 6 && (hdrOrd h != 0 || hdrScope h == 0)

/-- W64 of R133: a 64-bit operation names a line word in a field that it uses. -/
def rtW64 (code : List W32) : Bool :=
  code.any (fun w =>
    let r := rtDecode w
    let u := rtUses r.base
    r.wide && ((u.1 && r.d < 16) || (u.2.1 && r.a < 16) || (u.2.2 && r.b < 16)))

/-! ### The routine map (R133) -/

def mapV (e : W64) : Bool := bit e 8
def mapSlot (e : W64) : Nat := bits e 47 40
def mapOrd (e : W64) : Nat := bits e 10 9
def mapScope (e : W64) : Scope := scopeOf (bits e 13 11)
def mapW64 (e : W64) : Bool := bit e 14
def mapVersion (e : W64) : Nat := bits e 63 48

def mkMap (version slot : Nat) (w64 : Bool) (scope ord len : Nat) (v : Bool) : W64 :=
  BitVec.ofNat 64 (version % 2 ^ 16 * 2 ^ 48 + slot * 2 ^ 40 + (if w64 then 2 ^ 14 else 0) + scope * 2 ^ 11 + ord * 2 ^ 9 +
    (if v then 256 else 0) + len)

/-- An entry of a copy of the map; entries 0 to 31 are fixed. LEN of a fixed entry, and of an alias of a ROM slot, is the length of this
model's ROM code (log 104). -/
def entryIn (t : Tab W64) (id : Nat) : W64 :=
  if id < 32 then mkMap 0 id (rtW64 (romCode id)) 0 0 (romCode id).length true else t.getD id 0

/-- An entry of the partition's map, of a pan's copy, and of a cluster's. -/
def mapEntry (d : Dev) (p id : Nat) : W64 := entryIn (d.part p).rmap id
def panEntry (d : Dev) (pan id : Nat) : W64 := entryIn (d.pan pan).rmap id
def clusterEntry (d : Dev) (c id : Nat) : W64 := entryIn (d.cluster c).rmap id

/-- The code in a slot. -/
def slotCode (d : Dev) (p slot : Nat) : List W32 := if slot < 32 then romCode slot else (d.part p).code.getD slot []

/-- The RAM slot that an install takes while the partition's quota has one left: the lowest number from 32 that no partition holds (R132; log
116: the spec says only that it is a free one). -/
def slotFree (d : Dev) (p : Nat) : Option Nat :=
  if bits (d.part p).pctl 23 16 ≤ (d.part p).code.length then none
  else (List.range 224).map (· + 32) |>.find? (fun i => d.parts.all (fun e => (e.2.code.get? i).isNone))

/-! ### atom (R135 to R143) -/

/-- The ordering attributes of a set of ids (R143), by the cluster's copy of the map: the widest release scope and the widest acquire
scope. -/
def ordersOf (d : Dev) (c : Nat) (ids : List Nat) : Option Scope × Option Scope :=
  let wider := fun (a : Option Scope) (s : Scope) => match a with
    | none => some s
    | some x => if x.num < s.num then some s else some x
  ids.foldl (fun r id =>
    if 63 < id then r
    else
      let e := clusterEntry d c id
      if !mapV e then r
      else
        (if mapOrd e = 2 ∨ mapOrd e = 3 then wider r.1 (mapScope e) else r.1,
         if mapOrd e = 1 ∨ mapOrd e = 3 then wider r.2 (mapScope e) else r.2)) (none, none)

/-- The request of one invocation; an id above 63 is answered at once (R137, R138). -/
def invocation (pa id : Nat) (a : List W64) (hint : Nat) : Sub :=
  let u := { Sub.new (pa / 64) (.routine id (pa / 4 % 16) (a.getD 0 0) (a.getD 1 0) (a.getD 2 0) (a.getD 3 0)) with hint := hint }
  if 63 < id then { u with st := .performed, status := 4 } else u

/-- The operation that a replay continues. -/
def Warp.replayOp (w : Warp) : Option Nat :=
  match w.lpark with
  | .replay _ o _ => some o
  | _ => none

/-- The release waits of R143. -/
def releaseReady (d : Dev) (k : Nat) (w : Warp) (o : Option Scope) : Bool :=
  match o with
  | none => true
  | some sc => accessesOrdered d k w true sc

/-- The same of a satom, which acts as the fence word does: its lane blocks have issued too (R143, R313). -/
def satomReady (d : Dev) (k : Nat) (w : Warp) (o : Option Scope) : Bool :=
  match o with
  | none => true
  | some sc => fenceReady d k w true sc

/-- The row of atom for a modifier and type (R61, R62, R135). -/
def atomRow (t m : Nat) : LaneRow :=
  let four := m % 2 = 1
  ⟨fun t => t == 2 || t == 3 || t == 6 || t == 7, fun _ m => m < 4, true,
    if tyW t = 64 then .block 3 2 true else .block 2 1 true, .src 6, .src 7,
    if four then .block 8 8 false else .src t, if four then .unused else .src t⟩

/-- The request words of one lane (R137). -/
def atomArgs (c : Lcx) (f : LaneWord) (i : Nat) : List W64 :=
  let t := f.ty.toNat
  if f.mdf.getLsbD 0 then (List.range 4).map (fun j => BitVec.ofNat 64 (c.read (f.s2.toNat + 2 * j) 7 i))
  else [BitVec.ofNat 64 (c.read f.s2.toNat t i), BitVec.ofNat 64 (c.read f.s3.toNat t i)]

/-- ATOM. -/
def atomWord (f : LaneWord) : Dev → Nat → Warp → Block → Dev :=
  let t := f.ty.toNat
  let row := atomRow t f.mdf.toNat
  laneChecked row f true false (fun d k w b =>
    let c := lcx d w b
    let on := laneOn w b f
    laneAddrs .write false t (elemSize t) (laneAddrList c f.s1.toNat on) d k w b (fun accs unm =>
      let id := fun (i : Nat) => c.read f.s0.toNat 6 i
      let o := ordersOf d w.cluster ((lanesOn on).map id)
      let first := w.replayOp.isNone
      if memWait d k w.ownAside .a (accs.map (fun a => a.pa / 64)) || (first && !releaseReady d k w o.1) then laneStall d k w
      else
        let subs := accs.map (fun a =>
          (a.lane, { invocation a.pa (id a.lane) (atomArgs c f a.lane) f.hint.toNat with lanes := BitVec.ofNat 64 (2 ^ a.lane), pages := pagesOf [a] }))
        let d := accs.foldl (fun d a => l1Drop d w.cluster (a.pa / 64)) d
        let w := match first, o.2 with
          | true, some sc => { w with acquires := w.acquires ++ [(d.nextId, sc, false)] }
          | _, _ => w
        let w := { w with acks := w.acks + farCount ((subs.map (·.2)).filter (fun u => u.st == .sent)) }
        issueMem .a (.atom t f.dst.toNat f.lsel.toNat (f.nowb == 1) (f.mdf.getLsbD 1)) f.hint.toNat 2
          ((row.dRole f).regs f.dst.toNat ++ [1536 + f.lsel.toNat]) on
          (fun o => withAddrs { o with subs := subs.foldl (fun t e => t.set e.1 e.2) o.subs } accs) unm d k w b f))

def execAtom (f : LaneWord) (s : State) : Host.Outcome State Fault Refusal := laneWord s (atomWord f)

/-! ### satom (R141) -/

/-- SATOM. -/
def satomWord (dst a b : BitVec 6) : Dev → Nat → Warp → Dev :=
  checked [ckD (decide (dst.toNat < 63)), ckA (decide (a.toNat < 63)), ckB (decide (b.toNat < 61))]
    (interlock [dst.toNat, if dst = 0#6 then 0 else dst.toNat + 1, a.toNat, a.toNat + 1, b.toNat, b.toNat + 1, b.toNat + 2, b.toNat + 3]
      (fun d k w =>
        let va := w.s (a.toNat + 1)
        if va.toNat % 8 ≠ 0 then scalarTrap d k w 4 .align va []
        else withVa d k w va (fun v => withXlate d k w v .write 2 (fun pa _ =>
          let id := (w.s a.toNat).toNat
          let o := ordersOf d w.cluster [id]
          if mustWait d k w [pa / 64] || w.full .a || !satomReady d k w o.1 then stall d k w
          else
            let n := d.nextId
            let u := { invocation pa id [w.s b.toNat, w.s (b.toNat + 1), w.s (b.toNat + 2), w.s (b.toNat + 3)] 0 with pages := [v / 65536] }
            let op := { MemOp.new k w (d.partOf w) .scalar .a (.satom dst.toNat) w.spc.toNat 0 with
              addr := [(0, pa)], subs := [(0, u)], pages := [v / 65536] }
            let w := { w.raiseOut .a n with
              acks := w.acks + farCount (if u.st = .sent then [u] else [])
              pendS := w.pendS ++ (if dst = 0#6 then [] else [(n, dst.toNat), (n, dst.toNat + 1)])
              acquires := match o.2 with
                | some sc => w.acquires ++ [(n, sc, true)]
                | none => w.acquires }
            let d := done (l1Drop { d with nextId := n + 1, ops := d.ops.set n op } w.cluster (pa / 64)) k w 4
            if u.st = .sent then send d w.cluster [(n, 0)] else d))))

def execSatom (d a b : BitVec 6) (s : State) : Host.Outcome State Fault Refusal := scalarWord s (satomWord d a b)

/-! ### The reply (R138, R140, R142) -/

/-- The status word: status and failure code as the pan gave them, and HI for a 32-bit atom (R138). -/
def statusWord (u : Sub) (narrow : Bool) : Nat :=
  u.status + (if narrow && u.status == 0 && u.reply.getLsbD 32 then 2 ^ 18 else 0)

/-- ROUTINE_REPLY (R142). -/
def routineReplyD (id key : Nat) (d : Dev) : Dev :=
  match d.ops.get? id with
  | none => d
  | some o =>
    match o.subs.get? key with
    | none => d
    | some u =>
      if u.st ≠ .performed || !replyDue d o u then d
      else
        let d := forgetOlder d o.cluster u.line u.order
        let o1 := { o with subs := o.subs.set key { u with st := .back } }
        let d := if u.status = 4 then d else d.modWarp o.warp (fun w => { w with acks := w.acks - farCount [u] })
        match o.kind with
        | .atom t dst lsel nowb _ =>
          let st := statusWord u (tyW t == 32)
          let o1 := if st % 256 = 0 then o1 else { o1 with failed := o1.failed ++ [(key, BitVec.ofNat 64 st)] }
          let d := { d with ops := d.ops.set id o1 }
          let d := writeBack d o t dst lsel nowb [(key, u.reply.toNat % 2 ^ tyW t)]
          let d := if nowb then d else d.modWarp o.warp (fun w => w.setV (dst + (if tyW t = 64 then 2 else 1)) [(key, st)])
          completeOp d id
        | .satom dst =>
          let d := { d with ops := d.ops.set id o1 }
          let d := if dst = 0 then d
            else d.modWarp o.warp (fun w => (w.setS dst u.reply).setS (dst + 1) (BitVec.ofNat 64 (statusWord u false)))
          completeOp d id
        | _ => d

def execRoutineReply (op lane : Nat) (s : State) : Host.Outcome State Fault Refusal := eventStep s (routineReplyD op lane)

/-! ### rtinst (R129 to R132) -/

/-- Reads n words of code from a virtual address for a scalar word. -/
def readWords (d : Dev) (k : Nat) (w : Warp) (f : List W32 → Dev) : Nat → Nat → List W32 → Dev
  | 0, _, acc => f acc.reverse
  | n + 1, va, acc => if 2 ^ 48 ≤ va then protFault d k w .nonCanon else withRead d k w 4 va 4 (fun x => readWords d k w f n (va + 4) (BitVec.ofNat 32 x :: acc))

/-- An earlier install of the partition has not completed (R130). -/
def installBusy (d : Dev) (k p num : Nat) : Bool :=
  d.warps.any (fun e => e.1 != k && d.partOf e.2 == p && (match e.2.install with
    | some i => decide (i.num < num)
    | none => false))

/-- An install of the partition is in phase 2, which holds migration starts and recalls (R130). -/
def migrationHeld (d : Dev) (p : Nat) : Bool :=
  d.warps.any (fun e => d.partOf e.2 == p && (match e.2.install with
    | some i => i.begun && !i.todo.isEmpty
    | none => false))

/-- A line of the partition is moving (R107). -/
def linesMoving (d : Dev) (p : Nat) : Bool :=
  let x := d.part p
  d.pans.any (fun e => x.basePan ≤ e.1 && e.1 < x.basePan + x.pans && e.2.lines.any (fun l => l.2.moving))

/-- A run that looked up this version of the entry is still going (R130). -/
def oldRuns (d : Dev) (p id version : Nat) : Bool :=
  d.pans.any (fun e => e.2.runs.any (fun r => r.2.version == version && (match (d.ops.get? r.2.op).bind (fun o =>
      if o.part = p then o.subs.get? r.2.key else none) with
    | some u => (match u.act with
      | .routine i .. => i == id
      | _ => false)
    | none => false)))

/-- Ends an rtinst with its status. -/
def installDone (d : Dev) (k : Nat) (w : Warp) (dst : Nat) (code index version : Nat) : Dev :=
  done d k ({ w with install := none }.setS dst (BitVec.ofNat 64 (code + index * 256 + version * 2 ^ 16))) 4

/-- The units that hold a copy of the partition's map: pans, and clusters as 1024 + number (R133). -/
def mapUnits (d : Dev) (p : Nat) : List Nat :=
  let x := d.part p
  let l := (List.range x.pans).map (· + x.basePan)
  l ++ l.map (· + 1024)

/-- A unit puts an entry in place (R131). -/
def switchUnit (d : Dev) (u id : Nat) (e : W64) : Dev :=
  if u < 1024 then d.setPan u { d.pan u with rmap := (d.pan u).rmap.set id e }
  else d.setCluster (u - 1024) { d.cluster (u - 1024) with rmap := (d.cluster (u - 1024)).rmap.set id e }

/-- The unit that switches next. -/
def nextUnit (n : Nat) : List Nat → Option Nat
  | [] => none
  | u :: r => match nextUnit n r with
    | some v => if Config.unitRank n v < Config.unitRank n u then some v else some u
    | none => some u

/-- The install begins: a slot when the image has code, its code at every pan, and the entry to come (R130 phase 1). -/
def installBegin (d : Dev) (k : Nat) (w : Warp) (p : Nat) (i : Install) : Dev :=
  let old := mapEntry d p i.id
  let ver := BitVec.ofNat 64 ((mapVersion old + 1) % 2 ^ 16 * 2 ^ 48)
  let go := fun (d : Dev) (slot : W64) =>
    d.setWarp k { w with install := some { i with entry := i.entry ||| ver ||| slot, begun := true, old := old, todo := mapUnits d p } }
  if i.code.isEmpty then go d 0
  else
    match slotFree d p with
    | none => installDone d k w i.dst 7 0 (mapVersion old)
    | some sl =>
      let q := d.part p
      go (d.setPart p { q with code := q.code.set sl i.code }) (BitVec.ofNat 64 (sl * 2 ^ 40))

/-- One step of an install: the wait for earlier ones, the switch of a unit, the drain, or the end (R130, R131). -/
def installGoOn (d : Dev) (k : Nat) (w : Warp) (p : Nat) (i : Install) : Dev :=
  if !i.begun then
    if installBusy d k p i.num then d else installBegin d k w p i
  else
    match nextUnit d.free i.todo with
    | some u =>
      if linesMoving d p then d
      else
        let rest := i.todo.filter (· != u)
        let d := switchUnit d u i.id i.entry
        let d := if rest.isEmpty then d.setPart p { d.part p with rmap := (d.part p).rmap.set i.id i.entry } else d
        d.setWarp k { w with install := some { i with todo := rest } }
    | none =>
      if oldRuns d p i.id (mapVersion i.old) then d
      else
        let prev := mapSlot i.old
        let q := d.part p
        let d := if mapV i.old ∧ 32 ≤ prev then d.setPart p { q with code := q.code.erase prev } else d
        installDone d k w i.dst 0 0 (mapVersion i.entry)

/-- Takes an install in, in issue order (R130); the thread is parked until it has ended (R361). -/
def installStart (d : Dev) (k : Nat) (w : Warp) (dst id : Nat) (code : List W32) (entry : W64) : Dev :=
  stall { d with nextId := d.nextId + 1 } k { w with install := some ⟨d.nextId, dst, id, entry, code, false, 0, []⟩ }

/-- The installs in progress go on by a step, whatever their warps do. -/
def installsGo (d : Dev) : Dev :=
  (d.warps.filter (fun e => e.2.install.isSome)).foldl (fun d e => match d.warps.get? e.1 with
    | some w => match w.install with
      | some i => installGoOn d e.1 w (d.partOf w) i
      | none => d
    | none => d) d

/-- RTINST: the header and LEN words are read, then checked (R128, R130). -/
def rtinstWord (dst a b : BitVec 6) : Dev → Nat → Warp → Dev :=
  interlock [dst.toNat, a.toNat, b.toNat] (fun d k w =>
    let p := d.partOf w
    match w.install with
    | some _ => stall d k w
    | none =>
      let id := (w.s a.toNat).toNat
      let img := w.s b.toNat
      if id < 32 ∨ 63 < id then installDone d k w dst.toNat 1 0 0
      else if img = 0 then
        installStart d k w dst.toNat id [] 0
      else if img.toNat % 4 ≠ 0 then scalarTrap d k w 4 .align img []
      else withVa d k w img (fun va => withRead d k w 4 va 4 (fun h =>
        readWords d k w (fun code =>
          let version := mapVersion (mapEntry d p id)
          if !rtHeaderOk h then installDone d k w dst.toNat 2 0 version
          else
            match rtWordsCheck code 1, rtClockCheck code 1 4 with
            | some (c, i), _ => installDone d k w dst.toNat c i version
            | none, some (c, i) => installDone d k w dst.toNat c i version
            | none, none =>
              if hdrRom h then
                installStart d k w dst.toNat id []
                  (mkMap 0 (hdrSlot h) (rtW64 (romCode (hdrSlot h))) (hdrScope h) (hdrOrd h) (romCode (hdrSlot h)).length true)
              else
                installStart d k w dst.toNat id code (mkMap 0 0 (rtW64 code) (hdrScope h) (hdrOrd h) code.length true))
          (hdrLen h) (va + 4) [])))

def execRtinst (d a b : BitVec 6) (s : State) : Host.Outcome State Fault Refusal := scalarWord s (rtinstWord d a b)

end Sys2Proof.Machine
end

