-- ==== Sys2Proof/Machine/Pans.lean ====
section
/-!
DEFINITION. The pans (R100 to R112, R119, R144 to R147): taking requests, the conflict queue, fills, migration, the carve-out,
routine runs and commits; and the relay to hosts and peers (R101, R410 to R414). Memory itself holds every line's value (log 17); a
pan's tags say where the line is held and what waits for it.
-/
namespace Sys2Proof.Machine

/-! ### Causeway ports (R408 to R410) -/

/-- Sends a message on an UP port: into the retry buffer, or kept back while that is full (R409). -/
def sendFlit (d : Dev) (port : Nat) (m : PortMsg) : Dev :=
  let x := d.port port
  if x.state ≠ 2 then d
  else if x.retry.length < 512 then
    d.setPort port { x with retry := x.retry ++ [(x.sendSeq, m)], sendSeq := (x.sendSeq + 1) % 65536 }
  else { d with outbox := d.outbox ++ [(port, m)] }

/-- The reply of a request that came from a peer goes back on its port (R412); the operation ends. -/
def peerReply (d : Dev) (id : Nat) : Dev :=
  match d.ops.get? id with
  | none => d
  | some o =>
    match o.kind, o.subs with
    | .peer port tag, (_, u) :: _ =>
      if u.st ≠ .performed then d
      else
        let m := match u.act with
          | .load => PortMsg.loadReply (tag / 2) u.line u.data u.poison
          | .routine .. => .routineReply (tag / 2 / 64) (tag / 2 % 64) u.status u.reply
          | _ => .writeAck (tag / 2) u.line
        sendFlit { d with ops := d.ops.erase id } port m
    | .agent, (_, u) :: _ => if u.st = .performed ∧ u.status ≠ 0 then { d with ops := d.ops.erase id } else d
    | _, _ => d

/-- A request is performed at a pan with its outcome; a peer's reply leaves at once. -/
def performed (d : Dev) (p id key : Nat) (f : Sub → Sub) : Dev :=
  peerReply (modSub { d with replies := d.replies + 1 } id key (fun u =>
    { f u with st := .performed, at_ := d.clock, order := d.replies, pan := p })) id

/-! ### Performing a request -/

/-- Stores bytes into memory: whole sectors lose their poison (R68, R271), linger copies go and wait monitors compare (R162, R382). -/
def storeLine (d : Dev) (l : Nat) (bs : List (Nat × Byte × Byte)) : Dev :=
  let mem := bs.foldl (fun m b => memWrite m (l * 64 + b.1) ((memRead m (l * 64 + b.1) &&& ~~~ b.2.2) ||| (b.2.1 &&& b.2.2))) d.mem
  let d := { d with mem := mem }
  let d := (List.range 4).foldl (fun d i => if coversSector bs i then cleanPoison d (l * 64 + 16 * i) 16 else d) d
  written d (l * 64) 64

/-- The requester is counted in the line's tag (R106). A request that came in on causeway port i counts as one of cluster 1024 + i, so that
it ends a cluster's run (log 97: R106 speaks of clusters only). -/
def PanLine.count (e : PanLine) (c : Nat) : PanLine :=
  if e.lastCluster = c then { e with run := Nat.min (e.run + 1) 7 } else { e with lastCluster := c, run := 1 }

/-- The lines of a home pan that have left it by a forwarding entry, or are leaving it (R108). -/
def movedOut (d : Dev) (p : Nat) : Nat :=
  (d.pan p).fwd.length + ((d.pan p).lines.filter (fun e => e.2.moving && panOf d (ownerOf d e.1) e.1 == p)).length

/-- The line of the oldest forwarding entry starts its recall, when nothing keeps it in place (R108, R109). -/
def recallOldest (d : Dev) (p : Nat) : Dev :=
  match (d.pan p).fwd with
  | (old, c) :: _ =>
    match (d.pan c).line old with
    | some x => if movable d c old x then d.modLine c old (fun x => { x with moving := true }) else d
    | none => d
  | [] => d

/-- Starts a move when the run count asks for it (R106, R108, R109), unless an install holds migration (R130). A move for which the home
pan has no forwarding entry left waits for the recall of the oldest one. -/
def tryMove (d : Dev) (p part l : Nat) : Dev :=
  match (d.pan p).line l with
  | none => d
  | some e =>
    let home := panOf d part l
    let q := d.part part
    let target := if p = home then e.lastCluster else home
    if e.run < 7 ∨ e.lastCluster = p ∨ !bit (d.pan p).pcarve 10 ∨ migrationHeld d part ∨ !movable d p l e ∨ target < q.basePan ∨ q.basePan + q.pans ≤ target then d
    else if p = home ∧ 4096 ≤ movedOut d p then recallOldest (d.modLine p l (fun e => { e with due := true })) p
    else d.modLine p l (fun e => { e with moving := true })

/-- A forwarding entry of a home pan is gone: the moves that waited for one are taken up (R108). -/
def takeUpMoves (d : Dev) (p : Nat) : Dev :=
  ((d.pan p).lines.filter (fun e => e.2.due)).foldl (fun d e =>
    tryMove (d.modLine p e.1 (fun x => { x with due := false })) p (ownerOf d e.1) e.1) d

/-- Looks up the routine and starts its run, or answers why not (R144). -/
def startRun (d : Dev) (p bank id key : Nat) (o : MemOp) (u : Sub) : Dev :=
  match u.act with
  | .routine rid word _ _ _ _ =>
    let e := panEntry d p rid
    if !mapV e ∨ (slotCode d o.part (mapSlot e)).isEmpty then performed d p id key (fun u => { u with status := 3 })
    else if mapW64 e ∧ word % 2 = 1 then performed d p id key (fun u => { u with status := 9 })
    else d.setPan p { d.pan p with runs := (d.pan p).runs.set bank ⟨id, key, u.line, mapSlot e, mapVersion e⟩ }
  | _ => d

/-- Removes the forwarding entry of a line. -/
def dropFwd (d : Dev) (l : Nat) : Dev :=
  { d with pans := d.pans.map (fun e => (e.1, { e.2 with fwd := e.2.fwd.filter (fun f => f.1 != l) })) }

/-- A cflush has invalidated the line at its pan (R117): it ends there when that is the home pan, else with the notice to the home pan
that deletes the forwarding entry (R108). -/
def flushed (d : Dev) (p part l : Nat) (q : Nat × Nat) : Dev :=
  let home := panOf d part l
  if p = home then performed (dropLingers (dropFwd d l) (l * 64) 64) p q.1 q.2 (fun u => u)
  else d.setPan home { d.pan home with flushes := (d.pan home).flushes ++ [(l, q)] }

/-! ### Pins (R274, R282) -/

def Dev.modMop (d : Dev) (i : Nat) (f : MOp → MOp) : Dev := { d with mops := d.mops.modify i f }

/-- The operation holds a reference to the line's slot. -/
def takeRef (d : Dev) (c id vline line : Nat) (h : Hold) : Dev :=
  let x := d.cluster c
  let name := (((d.mops.get? id).map (mopPart d)).getD 0, vline)
  let h := { h with
    refs := if h.refs.contains id then h.refs else h.refs ++ [id]
    names := if h.names.contains name then h.names else h.names ++ [name] }
  let d := d.setCluster c { x with holds := x.holds.set line h }
  d.modMop id (fun o => { o with vlines := o.vlines.filter (· != vline), pins := o.pins ++ [(vline, line)] })

/-- The pan performs a pin like a load, for an operation that still wants it, and marks the line (R282). The warp's later loads read no
older L1 copy (R305). -/
def pinNow (d : Dev) (pan c id vline line : Nat) : Dev :=
  match d.mops.get? id with
  | none => d
  | some o =>
    if !(d.cluster c).mq.contains id || !o.vlines.contains vline then d
    else match (d.cluster c).holds.get? line with
      | some h => takeRef d c id vline line h
      | none =>
        let d := d.modLine pan line (fun e => { e.count c with used := d.clock, pins := e.pins ++ [c] })
        let d := forgetOlder { d with replies := d.replies + 1 } c line d.replies
        takeRef d c id vline line ⟨lineAt d line, linePoison d line, [], []⟩

/-- Performs a request that nothing blocks at the pan that holds its line. An access makes the line the last used and gives it the
access's mark (log 97); hint 4 leaves both (R48); every request counts (R106). Sectors of an absent line, which hint 4 does not allocate,
are read in HBM (R68). A store that finds no way to allocate is performed all the same (log 97). -/
def performAt (d : Dev) (p bank id key : Nat) (o : MemOp) (u : Sub) : Dev :=
  match o.kind with
  | .pin m vline => pinNow { d with ops := d.ops.erase id } p o.cluster m vline u.line
  | _ =>
  let l := u.line
  let count := fun (d : Dev) => d.modLine p l (fun e => e.count o.cluster)
  let touch := fun (d : Dev) => (count d).modLine p l (fun e => if u.hint = 4 then e else { e with used := d.clock, hint := u.hint })
  let place := fun (d : Dev) => if u.hint = 4 then d else (allocate d p l u.hint).getD d
  let d := if ((d.pan p).line l).isNone then readSectors d l (sectorsNeeded u.act) else d
  let d := match u.act with
    | .load => performed (touch d) p id key (fun u => { u with data := lineAt d l, poison := linePoison d l })
    | .store bs =>
      let d := touch (place d)
      let d := d.modLine p l (fun e => { e with valid := e.valid ||| sectorsWritten u.act, dirty := e.dirty ||| sectorsWritten u.act })
      performed (storeLine d l bs) p id key (fun u => u)
    | .zero =>
      let d := touch (place d)
      let d := d.modLine p l (fun e => { e with valid := 15, dirty := 15 })
      performed (devWriteN d (l * 64) 64 0) p id key (fun u => u)
    | .clean => performed ((count d).modLine p l (fun e => { e with dirty := 0 })) p id key (fun u => u)
    | .flush =>
      match (d.pan p).line l with
      | some e =>
        if e.pins.isEmpty then flushed (d.setPan p { d.pan p with lines := (d.pan p).lines.erase l }) p o.part l (id, key)
        else (count d).modLine p l (fun e => { e with dirty := 0, flushAt := e.flushAt ++ [(id, key)] })
      | none => flushed d p o.part l (id, key)
    | .drop => performed d p id key (fun u => u)
    | .routine .. => startRun (touch d) p bank id key o u
  tryMove d p o.part l

/-- A host address: the request passes to the PCI Express interface (R101), which performs it; a routine is refused (R138). -/
def hostPerform (d : Dev) (p id key : Nat) (u : Sub) : Dev :=
  match u.act with
  | .load => performed d p id key (fun u => { u with data := lineAt d u.line })
  | .store bs => performed (storeLine d u.line bs) p id key (fun u => u)
  | .zero => performed (devWriteN d (u.line * 64) 64 0) p id key (fun u => u)
  | .routine .. => performed d p id key (fun u => { u with status := 5 })
  | _ => performed d p id key (fun u => u)

/-- What a request asks of a peer. -/
def peerAsk (u : Sub) : PeerReq :=
  match u.act with
  | .store bs => .store bs
  | .zero => .store ((List.range 64).map (fun i => (i, 0, 255)))
  | .routine id word a0 a1 a2 a3 => .routine id word a0 a1 a2 a3
  | _ => .load

/-- A request without a link (R414): a load reads 0 with a data error, a store is not sent, a routine returns NOLINK. -/
def noLink (d : Dev) (p id key : Nat) (o : MemOp) (u : Sub) : Dev :=
  match u.act with
  | .load => performed d p id key (fun u => { u with data := 0, poison := 15 })
  | .routine .. => performed d p id key (fun u => { u with status := 6 })
  | _ => performed (d.modWarp o.warp (fun w => { w with acks := w.acks - 1 })) p id key (fun u => { u with status := 1 })

/-- A collective's engine owns the peer's line, from the issue of its write until the acknowledgement (R189). -/
def destOwned (d : Dev) (l : Nat) : Bool := d.colls.any (fun e => e.pending.any (fun q => q.2.1 == l))

/-- The tag of a request to a peer (R412): an odd one names an invocation by its lane, an even one a request by its line. -/
def farTag (act : Act) (id key : Nat) : Nat := if act.isRoutine then 2 * (id * 64 + key) + 1 else 2 * (id * 2 ^ 46 + key)

/-- A peer address: the relay passes the request to its causeway port (R101, R410, R411); none while the port cannot take it, or an engine
owns the line. -/
def peerSend (d : Dev) (p id key : Nat) (o : MemOp) (u : Sub) : Option Dev :=
  match portFor d (u.line * 64) with
  | none => some (noLink d p id key o u)
  | some port =>
    if d.cwself = 0x3FF ∨ 512 ≤ (d.port port).retry.length ∨ destOwned d u.line then none
    else
      let d := sendFlit d port (.request d.cwself.toNat (farTag u.act id key) (u.line % 2 ^ 34) (peerAsk u))
      some (match u.act with
        | .store _ | .zero => performed d p id key (fun u => { u with version := port })
        | _ => modSub d id key (fun u => { u with st := .far, version := port, pan := p }))

/-- Puts a request into a bank queue: behind those in it, but before the requests to its line that left its cluster after it (R107). -/
def insertRequest (d : Dev) (q : Nat × Nat) (list : List (Nat × Nat)) : List (Nat × Nat) :=
  match subOf d q with
  | none => list ++ [q]
  | some (o, u) =>
    let later := fun (r : Nat × Nat) => match subOf d r with
      | some (o', u') => u'.line == u.line && o'.cluster == o.cluster && u.order < u'.order
      | none => false
    list.takeWhile (fun r => !later r) ++ q :: list.dropWhile (fun r => !later r)

/-- Adds a request to a bank queue that has room. -/
def enqueue (d : Dev) (p l : Nat) (q : Nat × Nat) : Option Dev :=
  let x := d.pan p
  let b := bankOf (l * 64)
  let list := x.banks.getD b []
  if list.length < 64 then some (d.setPan p { x with banks := x.banks.set b (insertRequest d q list) }) else none

/-- A store of the device's own agents to a peer page goes to its relay as a request (R101), which a shootdown of its virtual page waits
for (R84); none while the bank's queue is full. -/
def agentStore (d : Dev) (p pa n v : Nat) (pages : List Nat) : Option (Dev × Nat) :=
  let id := d.nextId
  let l := pa / 64
  let o : MemOp := ⟨2 ^ 40, p, 1032, .engine, .g, .agent, 0, 0, 0, 0, 0, 0, [],
    [(l, { Sub.new l (.store (storeBytes (pa % 64) v n)) with order := d.replies, pages := pages })], [], [], [], 0, 0, [], pages⟩
  (enqueue { d with nextId := id + 1, replies := d.replies + 1, ops := d.ops.set id o } (panOf d p l) l (id, l)).map (fun d => (d, id))

/-- What becomes of a store of an agent: done, to be tried again (with its operation while a peer has to acknowledge it), or a fault. -/
inductive Put where
  | done (d : Dev)
  | busy (d : Dev) (op : Option Nat)
  | fault (c : FCode)

/-- A store of n bytes, within a page, at a physical address, for a virtual page when it has one (R101 to R105, R284). -/
def agentPutAt (d : Dev) (p : Nat) (op : Option Nat) (pages : List Nat) (pa n v : Nat) : Put :=
  match op with
  | some i => if (d.ops.get? i).isSome then .busy d (some i) else .done d
  | none =>
    if isPeer pa then (match agentStore d p pa n v pages with
      | some (d, i) => .busy d (some i)
      | none => .busy d none)
    else if storeWaits d p pa n then .busy (storeFills d p pa n) none
    else .done (agentWriteN d p pa n v)

/-- The same at a virtual address, for an agent of die 0. -/
def agentPut (d : Dev) (who : Asker) (p : Nat) (op : Option Nat) (va n v : Nat) : Put :=
  if 2 ^ 48 < va + n then .fault .nonCanon
  else match agentX d 0 [] who p va .write with
    | .hit pa _ => agentPutAt d p op [va / 65536] pa n v
    | .miss => .busy (addMiss d 0 p va who) op
    | .fault c => .fault c

/-- The request at a pan: relayed, forwarded, performed, or into the conflict queue; none while it cannot leave its queue (R100 to
R108). -/
def handle (d : Dev) (p bank : Nat) (q : Nat × Nat) (o : MemOp) (u : Sub) : Option Dev :=
  let x := d.pan p
  let home := panOf d o.part u.line
  if isHost (u.line * 64) then some (hostPerform d p q.1 q.2 u)
  else if isPeer (u.line * 64) then peerSend d p q.1 q.2 o u
  else
    match x.fwd.find? (fun f => f.1 == u.line) with
    | some (_, c) => enqueue d c u.line q
    | none =>
      if p ≠ home ∧ (x.line u.line).isNone then enqueue d home u.line q
      else
        let early := x.conflict.any (asks d u.line)
        let wait := fun (d : Dev) =>
          if x.conflict.length < 16 then some (d.setPan p { d.pan p with conflict := (d.pan p).conflict ++ [q] }) else none
        if early || blocked x d.clock bank u then wait d
        else if missing x u != 0 then (startFill d p u).bind wait
        else some (performAt d p bank q.1 q.2 o u)

/-- Takes the request at the head of a bank's input queue (R460). -/
def takeHead (p bank : Nat) (only : Sub → Bool) (d : Dev) : Dev :=
  let x := d.pan p
  match x.banks.getD bank [] with
  | [] => d
  | q :: rest =>
    let d1 := d.setPan p { x with banks := x.banks.set bank rest }
    match subOf d q with
    | none => d1
    | some (o, u) => if only u then (handle d1 p bank q o u).getD d else d

/-- TAG_PIPELINE_TAKE (R100 to R108, R460): it is always the head of the queue, place 0, that is taken. -/
def execTagPipelineTake (pan bank pos : Nat) (s : State) : Host.Outcome State Fault Refusal :=
  eventStep s (fun d => if pos = 0 then takeHead pan bank (fun _ => true) d else d)

/-- ROUTINE_INVOCATION (R144): the same for an invocation at the head of its queue. -/
def execRoutineInvocation (pan bank : Nat) (s : State) : Host.Outcome State Fault Refusal :=
  eventStep s (takeHead pan bank (fun u => u.act.isRoutine))

/-- A request of the conflict queue waits for its bank's line lock and for nothing else (R104). -/
def waitsForLock (d : Dev) (x : Pan) (q : Nat × Nat) : Bool :=
  match subOf d q with
  | some (_, u) => u.act.isRoutine && !(x.conflict.takeWhile (· != q)).any (asks d u.line) && !lineBusy x d.clock u && missing x u == 0
  | none => false

/-- CONFLICT_QUEUE_RELEASE (R103, R104): a request whose cause has cleared, the first for its line, is performed; a routine waits for
those that wait for the same lock before it. A request whose line the pan no longer holds returns to the home pan (R108). -/
def conflictReleaseD (p pos : Nat) (d : Dev) : Dev :=
  let x := d.pan p
  match x.conflict[pos]? with
  | none => d
  | some q =>
    let d1 := d.setPan p { x with conflict := x.conflict.eraseIdx pos }
    match subOf d q with
    | none => d1
    | some (o, u) =>
      let bank := bankOf (u.line * 64)
      let before := x.conflict.take pos
      let home := panOf d o.part u.line
      let lockTaken := u.act.isRoutine && before.any (fun c => waitsForLock d x c &&
        ((subOf d c).map (fun e => bankOf (e.2.line * 64))) == some bank)
      if before.any (asks d u.line) || lockTaken || blocked x d.clock bank u then d
      else if p ≠ home ∧ (x.line u.line).isNone then (enqueue d1 home u.line q).getD d
      else if missing x u != 0 then (startFill d p u).getD d
      else performAt d1 p bank q.1 q.2 o u

def execConflictQueueRelease (pan pos : Nat) (s : State) : Host.Outcome State Fault Refusal := eventStep s (conflictReleaseD pan pos)

/-- HBM_FILL_COMPLETE (R68, R102): the sectors arrive; uncorrectable ones are marked poisoned. -/
def hbmFillD (p l : Nat) (d : Dev) : Dev :=
  match (d.pan p).line l with
  | none => d
  | some e =>
    if !e.filling then d
    else (readSectors d l e.want).setLine p l { e with valid := e.valid ||| e.want, filling := false, want := 0 }

def execHbmFillComplete (pan line : Nat) (s : State) : Host.Outcome State Fault Refusal := eventStep s (hbmFillD pan line)

/-! ### Routine runs -/

/-- ROUTINE_COMMIT (R125, R144, R145): the run ends and its lock is freed; a commit drops linger copies, whatever it wrote (R147). -/
def routineCommitD (p bank : Nat) (d : Dev) : Dev :=
  match (d.pan p).runs.get? bank with
  | none => d
  | some r =>
    let d := d.setPan p { d.pan p with runs := (d.pan p).runs.erase bank }
    match subOf d (r.op, r.key) with
    | none => d
    | some (o, u) =>
      match u.act with
      | .routine _ word a0 a1 a2 a3 =>
        let l := r.line
        if linePoison d l ≠ 0 then performed d p r.op r.key (fun u => { u with status := 2 })
        else
          let data := lineAt d l
          let t := rtRun (slotCode d o.part r.slot) (rtStart data word [a0, a1, a2, a3])
          match t.fail with
          | some c => performed d p r.op r.key (fun u => { u with status := 1 + 256 * c })
          | none =>
            let sectors := t.written.foldl (fun m j => m ||| BitVec.ofNat 4 (2 ^ ((j + word) % 16 / 4))) 0#4
            let d := if t.written.isEmpty then dropLingers d (l * 64) 64
              else (devWriteN d (l * 64) 64 (rtLine data word t).toNat).modLine p l (fun e => { e with dirty := e.dirty ||| sectors })
            performed d p r.op r.key (fun u => { u with reply := t.reply })
      | _ => d

def execRoutineCommit (pan bank : Nat) (s : State) : Host.Outcome State Fault Refusal := eventStep s (routineCommitD pan bank)

/-! ### Migration (R106 to R109) -/

/-- Where a moving line goes: from home to the cluster that asked, from elsewhere to home. -/
def moveTarget (d : Dev) (p l : Nat) (e : PanLine) : Nat :=
  let home := panOf d (ownerOf d l) l
  if p = home then e.lastCluster else home

/-- MIGRATION_LINE_ARRIVAL (R107 step 3): the line starts at its new pan with run count 0 and its last cluster (log 97). -/
def migrationArrivalD (p l : Nat) (d : Dev) : Dev :=
  match (d.pan p).line l with
  | none => d
  | some e =>
    if !e.moving then d
    else
      let t := moveTarget d p l e
      match allocate d t l e.hint with
      | none => d
      | some d => d.modLine t l (fun x => { x with valid := e.valid, dirty := e.dirty, lastCluster := e.lastCluster, run := 0 })

def execMigrationLineArrival (pan line : Nat) (s : State) : Host.Outcome State Fault Refusal := eventStep s (migrationArrivalD pan line)

/-- Adds requests to a bank queue, in order. -/
def enqueueAll (d : Dev) (p l : Nat) (qs : List (Nat × Nat)) : Option Dev :=
  qs.foldl (fun d q => d.bind (fun d => enqueue d p l q)) (some d)

/-- MIGRATION_ACK (R107 steps 4 and 5): the forwarding entry is made, or deleted by a recall, and waiting requests go on; while the
target's queue has no room for them (R103), or requests to the line still stand in the queue of the pan that a recall leaves, the step
waits. -/
def migrationAckD (p l : Nat) (d : Dev) : Dev :=
  match (d.pan p).line l with
  | none => d
  | some e =>
    let t := moveTarget d p l e
    let home := panOf d (ownerOf d l) l
    if !e.moving || ((d.pan t).line l).isNone || (p != home && queued d p l) then d
    else
      let x := d.pan p
      let mine := asks d l
      let waiting := x.conflict.filter mine
      let d1 := d.setPan p { x with
        lines := x.lines.erase l
        conflict := x.conflict.filter (fun q => !mine q)
        watches := x.watches.filter (fun w => w.1 != l)
        fwd := if p = home then x.fwd ++ [(l, t)] else x.fwd }
      let d1 := if p = home then d1 else dropFwd d1 l
      let d1 := d1.setPan t { d1.pan t with watches := (d1.pan t).watches ++ x.watches.filter (fun w => w.1 == l) }
      ((enqueueAll d1 t l waiting).map (fun d => if p = home then d else takeUpMoves d home)).getD d

def execMigrationAck (pan line : Nat) (s : State) : Host.Outcome State Fault Refusal := eventStep s (migrationAckD pan line)

/-- EVICTION_NOTICE (R108): the pan that held a migrated line has evicted it, and has returned the requests that it had queued for it; the
flushes that invalidated the line there end. -/
def evictionNoticeD (p l : Nat) (d : Dev) : Dev :=
  let x := d.pan p
  match x.fwd.find? (fun f => f.1 == l) with
  | some (_, c) =>
    if ((d.pan c).line l).isSome || queued d c l || (d.pan c).conflict.any (asks d l) then d
    else
      let d := d.setPan p { x with fwd := x.fwd.filter (fun f => f.1 != l), flushes := x.flushes.filter (fun f => f.1 != l) }
      let ends := x.flushes.filter (fun f => f.1 == l)
      takeUpMoves (ends.foldl (fun d f => performed d p f.2.1 f.2.2 (fun u => u)) (if ends.isEmpty then d else dropLingers d (l * 64) 64)) p
  | none => d

def execEvictionNotice (pan line : Nat) (s : State) : Host.Outcome State Fault Refusal := eventStep s (evictionNoticeD pan line)

/-! ### Carve-out (R110, R111) -/

def carveTarget (v : W64) : Nat := bits v 3 0
def carveCurrent (v : W64) : Nat := bits v 7 4

/-- PCARVE with its fields; BUSY reads whether CURRENT differs from TARGET. -/
def mkCarve (target current : Nat) (rej migen : Bool) : W64 :=
  BitVec.ofNat 64 (target + 16 * current + (if target = current then 0 else 256) + (if rej then 512 else 0) + (if migen then 1024 else 0))

/-- The ways that a target carves. -/
def carvedWays (n : Nat) : List Nat := (List.range n).map (· + (16 - n))

/-- The next way to drain: the lowest-numbered one still to be carved (R111). -/
def nextDrain (x : Pan) : Option Nat :=
  if x.draining.isSome then x.draining
  else (carvedWays (carveTarget x.pcarve)).find? (fun w => !x.shadow.getLsbD w)

/-- Bytes of one way in the four banks of a pan (R110). -/
def wayBytes : Nat := 131072

/-- Bytes of contexts in the carved ways. -/
def imagesSize (x : Pan) : Nat := (x.images.map (·.size)).sum

/-- The carved way to return next: the highest-numbered one above the target, once the contexts do not need it (R110, R111). -/
def nextReturn (x : Pan) : Option Nat :=
  if carveTarget x.pcarve < carveCurrent x.pcarve ∧ imagesSize x ≤ (carveCurrent x.pcarve - 1) * wayBytes then
    (List.range (16 - carveTarget x.pcarve)).reverse.find? (fun w => x.shadow.getLsbD w)
  else none

/-- PCARVE_WRITE (R110, R111). -/
def pcarveWriteD (p : Nat) (v : W64) (d : Dev) : Dev :=
  let x := d.pan p
  let t := carveTarget v
  let cur := carveCurrent x.pcarve
  if 8 < t ∨ (t ≠ carveTarget x.pcarve ∧ carveTarget x.pcarve ≠ cur) then d.setPan p { x with pcarve := x.pcarve ||| 512#64 }
  else
    let x := { x with pcarve := mkCarve t cur false (bit v 10) }
    d.setPan p { x with draining := nextDrain x }

/-- A pan number names a pan of the device (R3). -/
def execPcarveWrite (pan : Nat) (v : W64) (s : State) : Host.Outcome State Fault Refusal :=
  eventStep s (fun d => if pan < 256 then pcarveWriteD pan v d else d)

/-- WAY_DRAIN_COMPLETE (R111): lines of the draining way that nothing holds are written back and invalidated; an empty way becomes
shadow. With no way to drain, the next way that is due returns from shadow to caching, and CURRENT falls by one. -/
def wayDrainD (p : Nat) (d : Dev) : Dev :=
  let x := d.pan p
  match x.draining with
  | none =>
    match nextReturn x with
    | none => d
    | some w => d.setPan p { x with
        shadow := x.shadow &&& ~~~ BitVec.ofNat 16 (2 ^ w)
        pcarve := mkCarve (carveTarget x.pcarve) (carveCurrent x.pcarve - 1) (bit x.pcarve 9) (bit x.pcarve 10) }
  | some w =>
    let held := fun (l : Nat) (e : PanLine) => e.filling || e.moving || !e.pins.isEmpty || e.owned d.clock || locked x l
    let x := { x with lines := x.lines.filter (fun e => e.2.way != w || held e.1 e.2) }
    if x.lines.any (fun e => e.2.way == w) then d.setPan p x
    else
      let x := { x with
        draining := none
        shadow := x.shadow ||| BitVec.ofNat 16 (2 ^ w)
        pcarve := mkCarve (carveTarget x.pcarve) (carveCurrent x.pcarve + 1) (bit x.pcarve 9) (bit x.pcarve 10) }
      d.setPan p { x with draining := nextDrain x }

def execWayDrainComplete (pan : Nat) (s : State) : Host.Outcome State Fault Refusal := eventStep s (wayDrainD pan)

end Sys2Proof.Machine
end

