-- ==== Sys2Proof/Machine/Sync.lean ====
section
/-!
DEFINITION. Synchronisation: gates (R365 to R367), cwait (R197), fences (R312, R313), the token (R302, R303), granules (R207 to
R210), and the steps GATE_ARRIVAL, GTRY_TIMEOUT, VGROW_GRANT and VGROW_REFUSE.
-/
namespace Sys2Proof.Machine

/-! ### Gates -/

def Crew.gate (c : Crew) (g : Nat) : Gate := c.gates.getD g ⟨0, 0, 0⟩

/-- The gate is declared (R367). -/
def gateDeclared (d : Dev) (w : Warp) (g : Nat) : Bool := ((d.crewOf w).map (fun c => (c.gate g).n != 0)).getD false

/-- ready(g) of R367. -/
def gateReady (d : Dev) (w : Warp) (g : Nat) : Bool :=
  match d.crewOf w with
  | some c =>
    let lag := ((c.gate g).gph - w.wph.getD g 0).toNat
    1 ≤ lag && lag ≤ 2 ^ 31 - 1
  | none => false

/-- Consumes a phase (R367). -/
def Warp.consume (w : Warp) (g : Nat) : Warp := { w with wph := w.wph.set g (w.wph.getD g 0 + 1) }

/-- An arrival reaches a gate; GATE_ARRIVAL counts it (R365). -/
def Crew.arrive (c : Crew) (g : Nat) : Crew := { c with arrivals := c.arrivals.set g (c.arrivals.getD g 0 + 1) }

/-- count(g, c) of R365: the gate after c arrivals, and the phases that complete. -/
def countGate (g : Gate) (c : Nat) : Gate × Nat :=
  if g.n = 0 then (g, 0)
  else ({ g with cnt := (g.cnt + c) % g.n, gph := g.gph + BitVec.ofNat 32 ((g.cnt + c) / g.n) }, (g.cnt + c) / g.n)

/-- The place of a gate's firing among those of one clock: by increasing N, then by gate number (R366). -/
def firingRank (n g : Nat) : Nat := 16 * n + g + 1

/-- Applies arrivals to the gates of a crew as one count per gate, and wakes the warps parked on gates that fire, ranked in
firing order; all of them waited for the same phase of their gate (R365, R366). -/
def applyArrivals (d : Dev) (ck : Nat) (arr : Tab Nat) : Dev :=
  match d.crews.get? ck with
  | none => d
  | some c =>
    let fired := (arr.filter (fun e => (countGate (c.gate e.1) e.2).2 != 0)).map (·.1)
    let gates := arr.foldl (fun gs e => gs.set e.1 (countGate (c.gate e.1) e.2).1) c.gates
    let d := d.setCrew ck { c with gates := gates }
    c.warps.foldl (fun d wk => d.modWarp wk (fun w =>
      match w.park with
      | .gate g _ => if fired.contains g ∧ gateReady d w g then
          { w with park := .run, ready := d.clock, rank := firingRank (c.gate g).n g } else w
      | _ => w)) d

/-- GATE_ARRIVAL (R365, R366): the arrivals of this clock are counted. -/
def gateArrivalD (ck : Nat) (d : Dev) : Dev :=
  match d.crews.get? ck with
  | none => d
  | some c => applyArrivals (d.setCrew ck { c with arrivals := [] }) ck c.arrivals

def execGateArrival (ck : Nat) (s : State) : Host.Outcome State Fault Refusal := eventStep s (gateArrivalD ck)

/-- A gate field names a gate (R60), and the gate is declared when the word executes (R367). -/
def gateWord (a : BitVec 6) (f : Dev → Nat → Warp → Dev) : Dev → Nat → Warp → Dev :=
  fun d k w => if gateDeclared d w a.toNat then f d k w else illegal d k w (.illOpnd, 5)

/-- GARRIVE (R367, R317). -/
def execGarrive (f a b : BitVec 6) (s : State) : Host.Outcome State Fault Refusal :=
  scalarWord s (checked [ckZero (f == 0#6 && b == 0#6), ckA (decide (a.toNat < 16))] (gateWord a (fun d k w =>
    if fenceReady d k w true .g then done (d.modCrew w.crewKey (·.arrive a.toNat)) k w 4 else stall d k w)))

/-- The wait succeeds: a phase is consumed, and the warp acquires at gang scope (R317, R367). -/
def passGate (d : Dev) (k : Nat) (w : Warp) (g : Nat) : Dev := acquireAct (done d k (w.consume g) 4) w.cluster .g

/-- GWAIT (R367). -/
def execGwait (f a b : BitVec 6) (s : State) : Host.Outcome State Fault Refusal :=
  scalarWord s (checked [ckZero (f == 0#6 && b == 0#6), ckA (decide (a.toNat < 16))] (gateWord a (fun d k w =>
    if !gateReady d w a.toNat then d.setWarp k { w with park := .gate a.toNat none }
    else if fenceReady d k w false .g then passGate d k w a.toNat
    else stall d k w)))

/-- A save of the warp's crew is pending (R367, R394). -/
def savePending (d : Dev) (w : Warp) : Bool := ((d.crewOf w).map (fun c => c.save != .none)).getD false

/-- GTRY (R367). -/
def execGtry (q a b : BitVec 6) (s : State) : Host.Outcome State Fault Refusal :=
  scalarWord s (checked [ckD (decide (q.toNat < 8)), ckA (decide (a.toNat < 16))] (interlock [b.toNat] (gateWord a (fun d k w =>
    let t := Nat.min (w.s b.toNat).toNat (2 ^ 24)
    if gateReady d w a.toNat then
      if fenceReady d k w false .g then passGate d k (w.setQ q.toNat true) a.toNat else stall d k w
    else if t = 0 ∨ savePending d w then done d k (w.setQ q.toNat false) 4
    else d.setWarp k { w with park := .gate a.toNat (some (d.clock + t, q.toNat)) }))))

/-- GTRY_TIMEOUT (R367): the hinted time has passed, or a save is pending. -/
def gtryTimeoutD (k : Nat) (d : Dev) : Dev :=
  match d.warps.get? k with
  | some w =>
    match w.park with
    | .gate _ (some (t, q)) => if t ≤ d.clock ∨ savePending d w then done d k (w.setQ q false) 4 else d
    | _ => d
  | none => d

def execGtryTimeout (k : Nat) (s : State) : Host.Outcome State Fault Refusal := eventStep s (gtryTimeoutD k)

/-! ### cwait and fences -/

/-- cwait on a path (R197). -/
def cwaitWord (p : Path) (f a b : BitVec 6) : Dev → Nat → Warp → Dev :=
  checked [ckZero (f == 0#6 && b == 0#6)] (interlock [a.toNat] (fun d k w =>
    if w.queue.isEmpty && w.lpark == .run && decide ((w.outs p).length ≤ (w.s a.toNat).toNat) then done d k w 4 else stall d k w))

def execCwaitG (d a b : BitVec 6) (s : State) : Host.Outcome State Fault Refusal := scalarWord s (cwaitWord .g d a b)
def execCwaitX (d a b : BitVec 6) (s : State) : Host.Outcome State Fault Refusal := scalarWord s (cwaitWord .x d a b)
def execCwaitA (d a b : BitVec 6) (s : State) : Host.Outcome State Fault Refusal := scalarWord s (cwaitWord .a d a b)
def execCwaitT (d a b : BitVec 6) (s : State) : Host.Outcome State Fault Refusal := scalarWord s (cwaitWord .t d a b)

/-- A fence (R313); scope codes 6 and 7 are unassigned minors (R312). -/
def fenceWord (rel acq : Bool) (f a b : BitVec 6) (sc : BitVec 3) : Dev → Nat → Warp → Dev :=
  checked [(decide (sc.toNat < 6), .illInst, 1), ckZero (f == 0#6 && a == 0#6 && b == 0#6)] (fun d k w =>
    if fenceReady d k w rel (scopeOf sc.toNat) then
      let d := done d k w 4
      if acq then acquireAct d w.cluster (scopeOf sc.toNat) else d
    else stall d k w)

def execFenceAcq (d a b : BitVec 6) (sc : BitVec 3) (s : State) : Host.Outcome State Fault Refusal :=
  scalarWord s (fenceWord false true d a b sc)
def execFenceRel (d a b : BitVec 6) (sc : BitVec 3) (s : State) : Host.Outcome State Fault Refusal :=
  scalarWord s (fenceWord true false d a b sc)
def execFenceFull (d a b : BitVec 6) (sc : BitVec 3) (s : State) : Host.Outcome State Fault Refusal :=
  scalarWord s (fenceWord true true d a b sc)

/-! ### The token -/

/-- TOK_PASS (R303). -/
def execTokPass (f a b : BitVec 6) (s : State) : Host.Outcome State Fault Refusal :=
  scalarWord s (checked [ckZero (f == 0#6 && b == 0#6)] (interlock [a.toNat] (fun d k w =>
    let t := (w.s a.toNat).toNat
    match d.crewOf w with
    | none => done d k w 4
    | some c =>
      if c.warps.length ≤ t then illegal d k w (.illOpnd, 5)
      else if c.token ≠ w.wcrew ∨ t = w.wcrew then done d k w 4
      else done (d.setCrew w.crewKey { c with token := t }) k w 4)))

/-- TOK_TAKE (R303). -/
def execTokTake (f a b : BitVec 6) (s : State) : Host.Outcome State Fault Refusal :=
  scalarWord s (checked [ckZero (f == 0#6 && a == 0#6 && b == 0#6)] (fun d k w =>
    if ((d.crewOf w).map (·.token)) == some w.wcrew then done d k w 4 else stall d k w))

/-! ### Granules -/

/-- Granules that no warp of the pipe holds (R207). -/
def freeGranules (d : Dev) (c p : Nat) : Nat :=
  48 - (d.warps.foldl (fun n e => if e.2.cluster = c ∧ e.2.pipe = p then n + e.2.valloc else n) 0)

/-- Granules that the oldest requests of a wait list take, in order, out of n free ones (R208). -/
def owed : Nat → List (Nat × Nat) → Nat
  | _, [] => 0
  | n, (_, m) :: r => if m ≤ n then m + owed (n - m) r else 0

/-- Granules that no warp holds and that no waiting request is to be granted first (R208, R210). -/
def spareGranules (d : Dev) (c p : Nat) : Nat := freeGranules d c p - owed (freeGranules d c p) (d.pipe c p).grow

/-- VGROW (R208). -/
def execVgrow (q a b : BitVec 6) (s : State) : Host.Outcome State Fault Refusal :=
  scalarWord s (checked [ckZero (b == 0#6), ckD (decide (q.toNat < 8))] (interlock [a.toNat] (fun d k w =>
    let n := (w.s a.toNat).toNat
    if n = 0 then done d k (w.setQ q.toNat true) 4
    else if 48 < w.valloc + n then done d k (w.setQ q.toNat false) 4
    else
      let x := d.pipe w.cluster w.pipe
      (d.setPipe w.cluster w.pipe { x with grow := x.grow ++ [(k, n)] }).setWarp k { w with park := .grow n q.toNat })))

/-- VGROW_GRANT (R208): the oldest request is granted once the pipe has its granules. -/
def vgrowGrantD (c p : Nat) (d : Dev) : Dev :=
  let x := d.pipe c p
  match x.grow with
  | (k, n) :: rest =>
    match d.warps.get? k with
    | some w =>
      match w.park with
      | .grow _ q =>
        if n ≤ freeGranules d c p then
          done (d.setPipe c p { x with grow := rest }) k
            ({ w with valloc := w.valloc + n, vregs := w.vregs.filter (fun e => e.1 < 32 * w.valloc) }.setQ q true) 4
        else d
      | _ => d
    | none => d
  | [] => d

def execVgrowGrant (c p : Nat) (s : State) : Host.Outcome State Fault Refusal := eventStep s (vgrowGrantD c p)

/-- The warp serves a point: its crew holds one, and the warp is not yet past its own pdone of it (R209, log 85). -/
def holdsPoint (d : Dev) (w : Warp) : Bool :=
  ((d.crewOf w).map (fun c => c.point.isSome)).getD false && w.park != .point && w.park != .off

def isGrow : Park → Bool
  | .grow .. => true
  | _ => false

/-- VGROW_REFUSE (R209): every warp of the pipe that serves a point waits in vgrow, and the oldest request cannot be granted (R208); the
youngest request is refused. -/
def vgrowRefuseD (c p : Nat) (d : Dev) : Dev :=
  let x := d.pipe c p
  let serving := d.warps.filter (fun e => e.2.cluster == c && e.2.pipe == p && holdsPoint d e.2)
  match x.grow.getLast? with
  | some (k, _) =>
    match d.warps.get? k with
    | some w =>
      match w.park with
      | .grow _ q =>
        if serving.all (fun e => isGrow e.2.park) && owed (freeGranules d c p) x.grow == 0 then
          done (d.setPipe c p { x with grow := x.grow.dropLast }) k (w.setQ q false) 4
        else d
      | _ => d
    | none => d
  | none => d

def execVgrowRefuse (c p : Nat) (s : State) : Host.Outcome State Fault Refusal := eventStep s (vgrowRefuseD c p)

/-- VSHRINK (R210). -/
def execVshrink (f a b : BitVec 6) (s : State) : Host.Outcome State Fault Refusal :=
  scalarWord s (checked [ckZero (f == 0#6 && b == 0#6)] (interlock [a.toNat] (fun d k w =>
    if lanesDrained w then
      let g := Nat.max 1 (w.valloc - (w.s a.toNat).toNat)
      done d k { w with valloc := g, vregs := w.vregs.filter (fun e => e.1 < 32 * g) } 4
    else stall d k w)))

end Sys2Proof.Machine
end

