-- ==== Sys2Proof/Machine/Windows.lean ====
section
/-!
DEFINITION. Scratchpad, copy descriptions, the region table and its window states, the window words (R171 to R183), touches, and
the copy engines' queues with the step COPY_JOB_START (R188); Machine/Copy.lean has the copy itself.
-/
namespace Sys2Proof.Machine

/-! ### Copy descriptions (R174 to R176) -/

/-- A little-endian field of a description. -/
def dField (d : Desc) (byte n : Nat) : Nat := (d.toNat >>> (8 * byte)) % 256 ^ n

def dSrc (d : Desc) : Nat := dField d 0 8
def dIdx (d : Desc) : Nat := dField d 8 8
def dSoff (d : Desc) : Nat := dField d 16 4
def dSize (d : Desc) : Nat := dField d 20 4
def dPad (d : Desc) : Nat := dField d 24 8
def dCount (d : Desc) (j : Nat) : Nat := dField d (32 + 2 * j) 2
def dLimit (d : Desc) (j : Nat) : Nat := dField d (40 + 2 * j) 2
/-- Signed byte stride of dimension j, 1 to 3. -/
def dStride (d : Desc) (j : Nat) : Int := (BitVec.ofNat 32 (dField d (44 + 4 * j) 4)).toInt
def dCtl (d : Desc) : Nat := dField d 60 4
def dNdim (d : Desc) : Nat := dCtl d % 4 + 1
def dEsz (d : Desc) : Nat := 2 ^ (dCtl d / 16 % 4)
def dTranspose (d : Desc) : Bool := dCtl d / 64 % 2 = 1
def dGather (d : Desc) : Bool := dCtl d / 128 % 2 = 1
def dGid (d : Desc) : Nat := dCtl d / 2 ^ 16 % 64
def dGen (d : Desc) : Bool := dCtl d / 2 ^ 22 % 2 = 1
def dGate (d : Desc) : Nat := dCtl d / 2 ^ 23 % 16
def dGnone (d : Desc) : Bool := dCtl d / 2 ^ 27 % 2 = 1

/-- Reserved fields are 0 and R176 holds but for the size. A GID without GEN fails here too, with the other fields of R176 (log 110: R179 names
no status for it). -/
def descForm (d : Desc) : Bool :=
  dCtl d / 4 % 4 == 0 && dCtl d / 256 % 256 == 0 && dCtl d / 2 ^ 28 == 0 &&
    (List.range 4).all (fun j => 1 ≤ dCount d j && dLimit d j ≤ dCount d j &&
      (j < dNdim d || (dCount d j == 1 && dLimit d j == 1 && (j == 0 || dStride d j == 0)))) &&
    (!(dTranspose d || dGather d) || 2 ≤ dNdim d) && (dGen d || dGid d == 0) && (!dGather d || dIdx d % 4 == 0)

/-- The conditions of R157 on a window bound to a group. -/
def groupForm (d : Desc) : Bool :=
  dNdim d == 1 && !dTranspose d && !dGather d && dLimit d 0 == dCount d 0 && dSrc d % 64 == 0 && dSize d % 64 == 0 &&
    64 ≤ dSize d && dSize d ≤ 65536 && dSrc d / 65536 == (dSrc d + dSize d - 1) / 65536

/-- The bind status of a description (R179), first failure in the table's order: scratch size, the other bound windows, and the
declared gates. -/
def bindStatus (d : Desc) (ssize : Nat) (others : List Desc) (gate : Nat → Bool) : Nat :=
  if !descForm d then 1
  else if dCount d 0 * dCount d 1 * dCount d 2 * dCount d 3 * dEsz d ≠ dSize d then 2
  else if dSoff d % 64 ≠ 0 ∨ dSize d % 64 ≠ 0 ∨ dSize d < 64 ∨ 1048576 < dSize d ∨ ssize < dSoff d + dSize d then 3
  else if others.any (fun o => dSoff o < dSoff d + dSize d && dSoff d < dSoff o + dSize o) then 4
  else if dGen d ∧ !groupForm d then 5
  else if dGen d ∧ others.any (fun o => dGen o && dGid o == dGid d) then 6
  else if !dGnone d ∧ !gate (dGate d) then 7
  else if 2 ^ 48 ≤ dSrc d ∨ (dGather d ∧ 2 ^ 48 ≤ dIdx d) then 8
  else 0

/-! ### The region table -/

/-- An entry that has never been bound. -/
def Win.empty : Win := ⟨0, false, .absent, false, 0, 0, 0, .none, 0, 0, 0, 0, false, 0, 0⟩

def Crew.win (c : Crew) (n : Nat) : Win := c.wins.getD n Win.empty

def Dev.setWin (d : Dev) (ck n : Nat) (x : Win) : Dev := d.modCrew ck (fun c => { c with wins := c.wins.set n x })

def Dev.win (d : Dev) (ck n : Nat) : Win := ((d.crews.get? ck).map (·.win n)).getD Win.empty

/-- A fresh entry for a bound description (R178). -/
def Win.bound (desc : Desc) : Win := { Win.empty with desc := desc, valid := true }

/-- Window status word (R180). -/
def Win.word (x : Win) : W64 :=
  let st := if !x.valid then 0 else match x.state with
    | .absent => 0
    | .filling => 1
    | .present => if x.holds = 0 then 2 else 3
  BitVec.ofNat 64 (st + (if x.valid then 4 else 0) + (if x.gerr then 8 else 0) + (if x.valid && dGen x.desc then 16 else 0) +
    x.bst % 256 * 2 ^ 16 + x.holds % 256 * 2 ^ 24 + x.fills % 2 ^ 32 * 2 ^ 32)

/-- The window that holds a crew-relative offset. -/
def Crew.windowAt (c : Crew) (off : Nat) : Option Nat :=
  (c.wins.find? (fun e => e.2.valid && dSoff e.2.desc ≤ off && off < dSoff e.2.desc + dSize e.2.desc)).map (·.1)

/-- One arrival on the window's gate, unless GNONE (R191). -/
def arriveWin (d : Dev) (ck : Nat) (x : Win) : Dev := if dGnone x.desc then d else d.modCrew ck (·.arrive (dGate x.desc))

/-- A window that a parked stream waits for no longer keeps it (R186). -/
def winLets (d : Dev) (ck : Nat) (free : Bool) (n : Nat) : Bool :=
  let x := d.win ck n
  x.state != .filling && (!free || x.holds == 0)

/-- Lane streams of the crew that were parked on window n, and wait for nothing more, are candidates from this clock on (R360). -/
def wakeStreams (d : Dev) (ck n : Nat) : Dev :=
  { d with warps := d.warps.map (fun e => match e.2.lpark with
    | .window ws fs free =>
      if e.2.crewKey = ck ∧ ws.contains n ∧ fs.isEmpty ∧ ws.all (winLets d ck free) then (e.1, { e.2 with lready := d.clock }) else e
    | _ => e) }

/-- The operations and collectives that have touched the window hold it as it becomes present (R182). -/
def takeHolds (d : Dev) (ck n : Nat) : Dev :=
  let op := fun (o : MOp) => o.crew == ck && o.wants.contains n
  let coll := fun (e : Coll) => e.crew == ck && some e.id == (d.crews.get? ck).map (·.id) && e.wants.contains n
  let x := d.win ck n
  { d.setWin ck n { x with holds := x.holds + (d.mops.filter (fun e => op e.2)).length + (d.colls.filter coll).length } with
    mops := d.mops.map (fun e =>
      if op e.2 then (e.1, { e.2 with holds := e.2.holds ++ [n], wants := e.2.wants.filter (· != n) }) else e)
    colls := d.colls.map (fun e => if coll e then { e with held := e.held ++ [n], wants := e.wants.filter (· != n) } else e) }

/-- The window's last element is written (R182, R191). -/
def fillDone (d : Dev) (ck n : Nat) : Dev :=
  let x := d.win ck n
  arriveWin (wakeStreams (takeHolds (d.setWin ck n
    { x with state := .present, fills := (x.fills + 1) % 2 ^ 32, filler := .none, got := 0, asking := 0 }) ck n) ck n) ck x

/-- A window returns to absent (R159, R180): the streams parked on it go on, and touch it again. -/
def Dev.winAbsent (d : Dev) (ck n : Nat) (x : Win) : Dev := wakeStreams (d.setWin ck n { x with state := .absent, filler := .none }) ck n

/-- A hold is released (R182). -/
def releaseHold (d : Dev) (ck n : Nat) : Dev :=
  let x := d.win ck n
  wakeStreams (d.setWin ck n { x with holds := x.holds - 1 }) ck n

/-! ### Window words -/

/-- Checks and binds a description that has been read, once the window is neither filling nor busy-held (R178, R179). -/
def bindWindow (n : Nat) (desc : Desc) (d : Dev) (k : Nat) (w : Warp) : Dev :=
  match d.crewOf w with
  | none => done d k { w with bind := none } 4
  | some c =>
    let e := c.win n
    if e.valid && (e.state == .filling || e.holds != 0) then stall d k { w with bind := some desc }
    else
      let others := (c.wins.filter (fun p => p.1 != n && p.2.valid)).map (·.2.desc)
      let st := bindStatus desc c.ssize others (fun g => (c.gate g).n != 0)
      let e' := if st = 0 then Win.bound desc else { Win.empty with bst := st }
      done (d.setWin w.crewKey n e') k { w with bind := none } 4

/-- WIN_BIND (R178, R179): the description is read before the wait; the read counts on G, as a scalar load's does (log 108). -/
def execWinBind (f a b : BitVec 6) (s : State) : Host.Outcome State Fault Refusal :=
  scalarWord s (checked [ckZero (f == 0#6), ckA (decide (a.toNat < 16))] (interlock [b.toNat] (fun d k w =>
    let va := w.s b.toNat
    match w.bind with
    | some desc => bindWindow a.toNat desc d k w
    | none =>
      if va.toNat % 64 ≠ 0 then scalarTrap d k w 4 .align va []
      else withVa d k w va (fun v => withRead d k w 4 v 64 (fun x => bindWindow a.toNat (BitVec.ofNat 512 x) d k w)))))

/-- WIN_STATE (R180). -/
def execWinState (f a b : BitVec 6) (s : State) : Host.Outcome State Fault Refusal :=
  scalarWord s (checked [ckZero (b == 0#6), ckA (decide (a.toNat < 16))] (interlock [f.toNat] (fun d k w =>
    done d k (w.setS f.toNat (d.win w.crewKey a.toNat).word) 4)))

/-- WIN_FREE (R181). -/
def execWinFree (f a b : BitVec 6) (s : State) : Host.Outcome State Fault Refusal :=
  scalarWord s (checked [ckZero (f == 0#6 && b == 0#6), ckA (decide (a.toNat < 16))] (fun d k w =>
    let x := d.win w.crewKey a.toNat
    if !x.valid then done d k w 4
    else if x.state = .filling ∨ x.holds ≠ 0 then stall d k w
    else done (d.setWin w.crewKey a.toNat { x with state := .absent }) k w 4))

/-! ### Touches (R182, R183, R158, R159) -/

/-- Why a touch did not start a fill. -/
inductive TouchFail where
  | groupErr (gid : Nat)
  | record (fseq : Nat)
  | prot (c : FCode)
  /-- the ask waits for its translation, or for an earlier access of the warp to the source -/
  | wait
  deriving DecidableEq, Repr

/-- The member index of a crew in a group of its partition (R151). -/
def memberOf (d : Dev) (c : Crew) (gid : Nat) : Option Nat :=
  (((d.part c.id.part).groups.get? gid).bind (fun g => g.members.find? (fun m => m.2.2.1 == c.id))).map (·.1)

/-- Queues the copy job of a window (R188). -/
def queueJob (d : Dev) (c ck n : Nat) : Dev :=
  let e := d.engine (engineOf c)
  d.setEngine (engineOf c) { e with jobs := e.jobs ++ [⟨ck, n, false, [], 0, none⟩] }

/-- What was issued before the touch, and a fill of the cluster follows, is still to be performed at one of the lines: an access or a pin of the
touching warp (R189, R319, R324), a write of another warp of the cluster, which a release and an acquire of the crew may have put before the
touch (R310; log 111), or a load of host memory when a line lies there (R323). -/
def earlierAccess (d : Dev) (c : Nat) (x : Win) (lines : List Nat) : Bool :=
  d.ops.any (fun e => e.1 < x.tid && (e.2.warp == x.toucher || (e.2.cluster == c && e.2.kind.isWrite)) &&
    e.2.subs.any (fun u => lines.contains u.2.line && u.2.unperformed)) ||
  lines.any (fun l => pinBefore d x.toucher c l x.tid) ||
  (lines.any (fun l => isHost (l * 64)) && hostBefore d x.toucher (fun q => decide (q.1 < x.tid)))

/-- The ask of a touched window (R158, R159): its source is translated at the cluster, and the ask goes to the record pan. -/
def sendAsk (d : Dev) (ck n : Nat) : Dev × Option TouchFail :=
  match d.crews.get? ck with
  | none => (d, none)
  | some c =>
    let x := c.win n
    let p := c.id.part
    let die := c.cluster / 64
    let fail := (dropAnswers d die (.ask ck n)).winAbsent ck n { x with asking := 0 }
    match memberOf d c (dGid x.desc) with
    | none => (fail, none)
    | some m =>
      match agentX d die (d.cluster c.cluster).tlb (.ask ck n) p (dSrc x.desc) .read with
      | .miss => (addMiss d die p (dSrc x.desc) (.ask ck n), some .wait)
      | .fault .notMapped =>
        let wslot := ((d.warps.get? x.toucher).map (·.wslot)).getD 0
        let (d, q) := addFault fail p (dSrc x.desc / 65536 * 65536) 0 0 .notMapped 0 c.cluster wslot
        (d, some (.record q))
      | .fault f => (fail, some (.prot f))
      | .hit pa _ =>
        if !isHbm pa then (fail, some (.prot .outside))
        else if earlierAccess d c.cluster x (linesOf pa (dSize x.desc)) then (d, some .wait)
        else
          let d := (dropAnswers d die (.ask ck n)).setWin ck n { x with asking := 0 }
          let q := d.part p
          (d.setPart p { q with groups := q.groups.modify (dGid x.desc) (fun g =>
            { g with asks := g.asks ++ [(m, pa, dSize x.desc)] }) }, none)

/-- Touches window n of crew ck for a word of warp k (R182): an absent window starts to fill, by a copy job, or by an ask, which the word
goes on with until it is sent. `tid` bounds the accesses that come before the touch. -/
def touchWin (d : Dev) (ck n k waddr block tid : Nat) : Dev × Option TouchFail :=
  match d.crews.get? ck with
  | none => (d, none)
  | some c =>
    let x := c.win n
    if x.state = .filling ∧ x.filler = .ask ∧ x.asking = 1 ∧ x.toucher = k ∧ x.twaddr = waddr then sendAsk d ck n
    else if x.state ≠ .absent then (d, none)
    else if x.gerr then (d, some (.groupErr (dGid x.desc)))
    else
      let x := { x with state := .filling, toucher := k, twaddr := waddr, tblock := block, got := 0, tid := tid }
      match (if dGen x.desc then memberOf d c (dGid x.desc) else none) with
      | none => (queueJob (d.setWin ck n { x with filler := .copy }) c.cluster ck n, none)
      | some _ => sendAsk (d.setWin ck n { x with filler := .ask, asking := 1 }) ck n

/-! ### Reads of agents (R177, R190) -/

/-- What an agent's read of virtual memory answers: the bytes and whether one lies in a poisoned sector, a wait at a pan, an address whose
translation it waits for, or a fault. -/
inductive AgentRead where
  | ok (v : Nat) (bad : Bool)
  | wait
  | miss (va : Nat)
  | fault (c : FCode) (va : Nat)
  deriving DecidableEq, Repr

/-- Translates [a, a + n), at most a page long, for an agent at a die: its pieces as (physical address, length), or where it stops. -/
def agentPieces (d : Dev) (die : Nat) (own : List TlbEntry) (who : Asker) (p : Nat) (a : W64) (n : Nat) :
    List (Nat × Nat) ⊕ AgentRead :=
  let piece := fun (a : W64) (n : Nat) =>
    match aform a with
    | .tagged _ _ => Sum.inr (AgentRead.fault .tagMisuse a.toNat)
    | .bad => .inr (.fault .nonCanon a.toNat)
    | .va va => match agentX d die own who p va .read with
      | .hit pa _ => .inl (pa, n)
      | .miss => .inr (.miss va)
      | .fault c => .inr (.fault c va)
  let n1 := Nat.min n (65536 - a.toNat % 65536)
  match piece a n1 with
  | .inr r => .inr r
  | .inl x =>
    if n1 = n then .inl [x]
    else match piece (a + BitVec.ofNat 64 n1) (n - n1) with
      | .inr r => .inr r
      | .inl y => .inl [x, y]

/-- The bytes of pieces, and whether one lies in a poisoned sector. -/
def readPieces (d : Dev) : List (Nat × Nat) → Nat × Bool
  | [] => (0, false)
  | (pa, n) :: r =>
    let (v, bad) := readPieces d r
    (devReadN d pa n + 256 ^ n * v, bad || (firstPoison d pa n).isSome)

/-- Lines of the physical pieces of a read. -/
def pieceLines (l : List (Nat × Nat)) : List Nat := distinct (l.flatMap (fun e => linesOf e.1 e.2))

/-- An agent reads n bytes, at most a page, at once, when no line of them keeps it waiting (R103, R105). -/
def agentRead (d : Dev) (die : Nat) (own : List TlbEntry) (who : Asker) (p : Nat) (a : W64) (n : Nat) : AgentRead :=
  match agentPieces d die own who p a n with
  | .inr r => r
  | .inl l =>
    if (pieceLines l).any (fun x => agentWaits d p (Sub.new x .load)) then .wait else .ok (readPieces d l).1 (readPieces d l).2

/-- The pans' tags for such a read: absent sectors are fetched with it (R68, R102; log 61). -/
def agentFetch (d : Dev) (die : Nat) (own : List TlbEntry) (who : Asker) (p : Nat) (a : W64) (n : Nat) : Dev :=
  match agentPieces d die own who p a n with
  | .inr _ => d
  | .inl l => if (pieceLines l).any (fun x => agentWaits d p (Sub.new x .load)) then d else l.foldl (fun d e => agentReads d p e.1 e.2) d

/-! ### The copy (R177, R190) -/

/-- The element indices (i0, i1, i2, i3) of a description, i0 innermost. -/
def elements (x : Desc) : List (Nat × Nat × Nat × Nat) :=
  (List.range (dCount x 3)).flatMap (fun i3 => (List.range (dCount x 2)).flatMap (fun i2 =>
    (List.range (dCount x 1)).flatMap (fun i1 => (List.range (dCount x 0)).map (fun i0 => (i0, i1, i2, i3)))))

/-- Place of an element in the window (R177). -/
def elementPlace (x : Desc) : Nat × Nat × Nat × Nat → Nat
  | (i0, i1, i2, i3) =>
    if dTranspose x then ((i3 * dCount x 2 + i2) * dCount x 0 + i0) * dCount x 1 + i1
    else ((i3 * dCount x 2 + i2) * dCount x 1 + i1) * dCount x 0 + i0

/-- Writes n bytes of scratch at an SPA. -/
def scratchWrite (c : Cluster) (spa n v : Nat) : Cluster := { c with scratch := memWriteN c.scratch spa n v }

/-- The bank words of a range of scratch hold no poison. -/
def cleanScratch (c : Cluster) (spa n : Nat) : Cluster :=
  { c with spoison := c.spoison.filter (fun b => !(spa ≤ b * 16 && b * 16 + 16 ≤ spa + n)) }

/-- The engine's queue: its first 32 jobs that do not run; the clusters hold the later ones until a place frees (R188). -/
def Engine.queue (x : Engine) : List Job := (x.jobs.filter (fun j => !j.running)).take 32

/-- COPY_JOB_START (R188): the engine takes a job of its queue, its two clusters in turn, while fewer than four run. -/
def copyJobStartD (e : Nat) (d : Dev) : Dev :=
  let x := d.engine e
  if 4 ≤ (x.jobs.filter (·.running)).length then d
  else
    match (match x.queue.find? (fun j => j.crew / 32 != x.last) with
      | some j => some j
      | none => x.queue.head?) with
    | none => d
    | some j =>
      d.setEngine e { x with
        last := j.crew / 32
        jobs := x.jobs.map (fun i => if i.crew = j.crew ∧ i.win = j.win then { i with running := true } else i) }

def execCopyJobStart (e : Nat) (s : State) : Host.Outcome State Fault Refusal := eventStep s (copyJobStartD e)

/-- Takes a job off its engine. -/
def dropJob (d : Dev) (ck n : Nat) : Dev :=
  let d := forgetAsks d (· == .job ck n)
  { d with engines := d.engines.map (fun e => (e.1, { e.2 with jobs := e.2.jobs.filter (fun j => !(j.crew == ck && j.win == n)) })) }

/-- A fault that an engine or a fill meets for the word that touched the window (R190, R386). -/
def engineTrap (d : Dev) (x : Win) (c : FCode) : Dev :=
  match d.warps.get? x.toucher with
  | some w => takeTrap d x.toucher w .engine .prot x.twaddr x.tblock 0 (BitVec.ofNat 64 c.num) []
  | none => d

end Sys2Proof.Machine
end

