-- ==== Sys2Proof/Machine/Copy.lean ====
section
/-!
DEFINITION. The copy of a window by a copy engine (R177, R189, R190): the engine reads as it goes, a line at a time or what one element
needs, and owns each source line while it reads it; the step WINDOW_FILL_COMPLETE.
-/
namespace Sys2Proof.Machine

/-- What the next element of a copy needs: nothing, its row's index word, or its source bytes. -/
inductive ElemNeed where
  | value (v : Nat) (bad : Bool)
  | index (a : W64)
  | source (a : W64)
  deriving DecidableEq, Repr

/-- What an element needs (R177), with the index word of its row when it has been read: a word in a poisoned sector makes every element
of the row poisoned PAD (R190). -/
def elemNeed (x : Desc) (row : Option (Nat × W32 × Bool)) : Nat × Nat × Nat × Nat → ElemNeed
  | (i0, i1, i2, i3) =>
    let pad := dPad x % 256 ^ dEsz x
    let out := decide (dLimit x 0 ≤ i0 ∨ dLimit x 1 ≤ i1 ∨ dLimit x 2 ≤ i2 ∨ dLimit x 3 ≤ i3)
    let source := fun (r : Int) => ElemNeed.source (BitVec.ofInt 64
      ((dSrc x : Int) + i0 * dEsz x + r + i2 * dStride x 2 + i3 * dStride x 3))
    if dGather x ∧ i1 < dLimit x 1 ∧ dLimit x 0 ≠ 0 ∧ dLimit x 2 ≠ 0 ∧ dLimit x 3 ≠ 0 then
      match row with
      | some (r, v, bad) =>
        if r ≠ i1 then .index (BitVec.ofNat 64 (dIdx x + 4 * i1))
        else if bad then .value pad true
        else if out ∨ v.toInt < 0 then .value pad false
        else source (v.toInt * dStride x 1)
      | none => .index (BitVec.ofNat 64 (dIdx x + 4 * i1))
    else if out then .value pad false
    else source ((i1 : Int) * dStride x 1)

/-- Puts one element into the window. -/
def putElem (c : Cluster) (base : Nat) (x : Desc) (e : Nat × Nat × Nat × Nat) (v : Nat) (bad : Bool) : Cluster :=
  let spa := base + elementPlace x e * dEsz x
  let c := scratchWrite c spa (dEsz x) v
  { c with spoison := if bad then (spa / 16) :: c.spoison.filter (· != spa / 16) else c.spoison }

/-- Copies elements as far as they need only what lies in the lines that `read` can answer for. -/
def copyRun (read : W64 → Nat → Option (Nat × Bool)) (base : Nat) (x : Desc) :
    List (Nat × Nat × Nat × Nat) → Job → Cluster → Job × Cluster
  | [], j, c => (j, c)
  | e :: r, j, c =>
    let j := match elemNeed x j.row e with
      | .index a => match read a 4 with
        | some (v, bad) => { j with row := some (e.2.1, BitVec.ofNat 32 v, bad) }
        | none => j
      | _ => j
    let put := fun (v : Nat) (bad : Bool) => copyRun read base x r { j with pos := j.pos + 1 } (putElem c base x e v bad)
    match elemNeed x j.row e with
    | .value v bad => put v bad
    | .index _ => (j, c)
    | .source a => match read a (dEsz x) with
      | some (v, bad) => put v bad
      | none => (j, c)

/-- The pan would perform a read of the line now (R103, R105, R189); host and peer lines have no copy here (R100). A read arrives when it is
performed: until then it stands in no queue, so that requests that have arrived go before it (log 111). -/
def engineReady (d : Dev) (p l : Nat) : Bool :=
  let u := Sub.new l .load
  !agentWaits d p u && (!isHbm (l * 64) || missing (d.pan (currentPan d p l)) u == 0)

/-- A read that cannot be performed yet: a miss starts its fill. -/
def engineWaits (d : Dev) (p l : Nat) : Dev :=
  let u := Sub.new l .load
  if agentWaits d p u || !isHbm (l * 64) then d else (startFill d (currentPan d p l) u).getD d

/-- The engine owns the line while the read's data leave the bank (R189). -/
def engineOwns (p : Nat) (d : Dev) (l : Nat) : Dev :=
  d.modLine (currentPan d p l) l (fun e => { e with owner := some d.clock, used := d.clock })

/-- Changes a job. -/
def Dev.modJob (d : Dev) (ck n : Nat) (f : Job → Job) : Dev :=
  { d with engines := d.engines.map (fun e => (e.1, { e.2 with jobs := e.2.jobs.map (fun j => if j.crew = ck ∧ j.win = n then f j else j) })) }

/-- The job of a window goes on with the lines that its next element needs, translated: it reads them once, writes what they give, and at
the last element the window is present. -/
def copyOn (ck n : Nat) (c : Crew) (j : Job) (lines : List Nat) (d : Dev) : Dev :=
  let x := c.win n
  let p := c.id.part
  let die := c.cluster / 64
  let own := (d.engine (engineOf c.cluster)).tlb
  if earlierAccess d c.cluster x lines then d
  else match lines.find? (fun l => !engineReady d p l) with
    | some l => engineWaits d p l
    | none =>
      let base := c.sbase + dSoff x.desc
      let cl := if j.pos = 0 then cleanScratch (d.cluster c.cluster) base (dSize x.desc) else d.cluster c.cluster
      let read := fun (a : W64) (len : Nat) => match agentPieces d die own (.job ck n) p a len with
        | .inl l => if (pieceLines l).all lines.contains then some (readPieces d l) else none
        | .inr _ => none
      let els := elements x.desc
      let (j, cl) := copyRun read base x.desc (els.drop j.pos) j cl
      let d := dropAnswers ((lines.foldl (engineOwns p) d).setCluster c.cluster cl) die (.job ck n)
      if j.pos = els.length then fillDone (dropJob d ck n) ck n else d.modJob ck n (fun _ => j)

/-- WINDOW_FILL_COMPLETE (R177, R182, R189 to R191): the running job of a window takes its next lines, or meets a fault (R190). -/
def windowFillCompleteD (ck n : Nat) (d : Dev) : Dev :=
  match d.crews.get? ck with
  | none => d
  | some c =>
    match (d.engine (engineOf c.cluster)).jobs.find? (fun j => j.crew == ck && j.win == n) with
    | none => d
    | some j =>
      let x := c.win n
      let p := c.id.part
      let die := c.cluster / 64
      let need := agentPieces d die (d.engine (engineOf c.cluster)).tlb (.job ck n) p
      if !j.running || !j.fseqs.isEmpty then d
      else
        let first := match ((elements x.desc).drop j.pos).head? with
          | some e => match elemNeed x.desc j.row e with
            | .value .. => Sum.inl []
            | .index a => need a 4
            | .source a => need a (dEsz x.desc)
          | none => .inl []
        match first with
        | .inl l => copyOn ck n c j (pieceLines l) d
        | .inr (.miss va) => addMiss d die p va (.job ck n)
        | .inr (.fault .notMapped va) =>
          let (d, q) := addFault (dropAnswers d die (.job ck n)) p (va / 65536 * 65536) 0 0 .notMapped 0 c.cluster
            (((d.warps.get? x.toucher).map (·.wslot)).getD 0)
          d.modJob ck n (fun j => { j with fseqs := [q] })
        | .inr (.fault f _) => engineTrap (dropJob d ck n) x f
        | .inr (.ok ..) => d
        | .inr .wait => d

def execWindowFillComplete (crew win : Nat) (s : State) : Host.Outcome State Fault Refusal := eventStep s (windowFillCompleteD crew win)

end Sys2Proof.Machine
end

