-- ==== Sys2Proof/Machine/Scratch.lean ====
section
/-!
DEFINITION. Lane scratchpad words (R184 to R187, R390), remote scratchpad access (R194, R195, R406) and the steps
REMOTE_SCRATCH_ACCESS and REMOTE_SCRATCH_RETURN.
-/
namespace Sys2Proof.Machine

/-- A lane's scratch access: crew-relative element and byte offset (R184). -/
structure SAcc where
  lane : Nat
  elem : Nat
  off : Nat
  deriving DecidableEq, Repr

/-- The accesses of the executing lanes; 4-bit elements have nibble offsets. -/
def scratchAccs (c : Lcx) (code t : Nat) (on : Mask) : List SAcc :=
  (lanesOn on).map (fun i =>
    let e := c.read code 6 i
    ⟨i, e, if tyW t = 4 then e / 2 else e⟩)

/-- Parks the lane stream until windows are filled, for a store also free of holds, or a record is resolved (R159, R186). -/
def parkWindow (d : Dev) (k : Nat) (w : Warp) (wins fseqs : List Nat) (free : Bool) : Dev :=
  (leavePipe d w).setWarp k { w with lpark := .window wins fseqs free, xl := [], lready := d.clock + 1 }

/-- Touches windows in order and answers the failures met. -/
def touchAll (d : Dev) (ck k waddr block : Nat) : List Nat → Dev × List (Nat × TouchFail)
  | [] => (d, [])
  | n :: r =>
    let (d, f) := touchWin d ck n k waddr block d.nextId
    let (d, l) := touchAll d ck k waddr block r
    (d, match f with
      | some x => (n, x) :: l
      | none => l)

/-- scratch_word of R186: checks, touches and waits, then g performs the accesses. `store` says that the word is sts, `tap` that it
is ld.tap. -/
def scratchWord (t : Nat) (store tap : Bool) (f : LaneWord) (g : List SAcc → Crew → Dev → Nat → Warp → Block → Dev) :
    Dev → Nat → Warp → Block → Dev :=
  fun d k w b =>
    let accs := scratchAccs (lcx d w b) f.s0.toNat t (execMask w b f)
    let size := if tap then 1 else elemSize t
    match d.crewOf w with
    | none => laneNext d k w b f
    | some c =>
      let lanes := fun (p : SAcc → Bool) => maskOf ((accs.filter p).map (·.lane))
      let mis := fun (a : SAcc) => !tap && a.off % size != 0
      let out := fun (a : SAcc) => decide (c.ssize < a.off + size)
      match accs.find? mis with
      | some a => laneTrap d k w b .align (lanes mis) (BitVec.ofNat 64 a.elem)
      | none =>
        if accs.any out then laneTrap d k w b .prot (lanes out) (BitVec.ofNat 64 FCode.outside.num)
        else if w.acquires.any (fun e => !e.2.2) then laneStall d k w
        else
          let ws := distinct (accs.filterMap (fun a => c.windowAt a.off))
          let ck := w.crewKey
          let (d, fails) := touchAll d ck k (laneAddr w b) b.base (ws.filter (fun n => (c.win n).state == .absent || (c.win n).asking == 1))
          let inWin := fun (n : Nat) (a : SAcc) => c.windowAt a.off == some n
          match fails.find? (fun e => match e.2 with
            | .groupErr _ => true
            | _ => false), fails.find? (fun e => match e.2 with
            | .prot _ => true
            | _ => false) with
          | some (n, .groupErr gid), _ => laneTrap d k w b .groupErr (lanes (inWin n)) (BitVec.ofNat 64 gid)
          | _, some (_, .prot fc) => takeTrap d k w .engine .prot (laneAddr w b) b.base 0 (BitVec.ofNat 64 fc.num) []
          | _, _ =>
            let recs := fails.filterMap (fun e => match e.2 with
              | .record q => some q
              | _ => none)
            let waits := ws.filter (fun n =>
              let x := d.win ck n
              x.state == .filling || (store && x.holds != 0))
            if !recs.isEmpty then parkWindow d k w [] recs false
            else if fails.any (fun e => e.2 == .wait) then laneStall d k w
            else if !tap && !waits.isEmpty then parkWindow d k w waits [] store
            else g accs c d k w b

/-- A scratch element as a crew reads it, and whether its bank word is poisoned. -/
def scratchElem (cl : Cluster) (base t elem : Nat) : Nat × Bool :=
  if tyW t = 4 then
    ((memRead cl.scratch (base + elem / 2)).toNat / (if elem % 2 = 0 then 1 else 16) % 16, cl.spoison.contains ((base + elem / 2) / 16))
  else (memReadN cl.scratch (base + elem) (elemSize t), cl.spoison.contains ((base + elem) / 16))

/-- Writes a scratch element; a nibble leaves the other half of its byte. -/
def scratchPut (cl : Cluster) (base t elem v : Nat) : Cluster :=
  if tyW t = 4 then
    let old := (memRead cl.scratch (base + elem / 2)).toNat
    scratchWrite cl (base + elem / 2) 1 (if elem % 2 = 0 then old / 16 * 16 + v % 16 else old % 16 + 16 * (v % 16))
  else scratchWrite cl (base + elem) (elemSize t) v

/-- Address of a poisoned bank word as a data error names it (R478). -/
def bankLoc (off : Nat) : W64 := BitVec.ofNat 64 (2 ^ 63 + off / 16 * 16)

/-- LDS (R184 to R186, R390). -/
def ldsWord (f : LaneWord) : Dev → Nat → Warp → Block → Dev :=
  let t := f.ty.toNat
  laneChecked ⟨tyMem, mod0, true, .dst t, .src 6, .unused, .unused, .unused⟩ f true false
    (scratchWord t false false f (fun accs c d k w b =>
      let cl := d.cluster w.cluster
      let at_ := fun (a : SAcc) => scratchElem cl c.sbase t a.elem
      let bad := accs.filter (fun a => (at_ a).2)
      let d := finish f t false (accs.map (fun a => (a.lane, if (at_ a).2 then 0 else (at_ a).1))) 0 d k w b
      match bad, d.warps.get? k with
      | a :: _, some w' => takeTrap d k w' .lane .dataErr (laneAddr w b) b.base (maskOf (bad.map (·.lane))) (bankLoc a.off) []
      | _, _ => d))

def execLds (f : LaneWord) (s : State) : Host.Outcome State Fault Refusal := laneWord s (ldsWord f)

/-- Bank words that a list of (offset, size), in half bytes, covers whole. -/
def coveredBanks (l : List (Nat × Nat)) : List Nat :=
  (distinct (l.map (fun e => e.1 / 32))).filter (fun b =>
    (List.range 32).all (fun i => l.any (fun e => e.1 ≤ b * 32 + i && b * 32 + i < e.1 + e.2)))

/-- The half bytes of a scratch element of type t: a 4-bit element is numbered by half bytes already. -/
def elemHalves (t elem : Nat) : Nat × Nat := if tyW t = 4 then (elem, 1) else (2 * elem, 2 * elemSize t)

/-- Clears the poison of bank words of a crew's scratch, given as crew-relative bank words (R390). -/
def cleanBanks (cl : Cluster) (base : Nat) (l : List Nat) : Cluster :=
  { cl with spoison := cl.spoison.filter (fun b => !l.any (fun x => base / 16 + x == b)) }

/-- STS (R184 to R187, R390). -/
def stsWord (f : LaneWord) : Dev → Nat → Warp → Block → Dev :=
  let t := f.ty.toNat
  laneChecked ⟨tyMem, mod0, true, .unused, .src 6, .src t, .unused, .unused⟩ f true false
    (scratchWord t true false f (fun accs c d k w b =>
      let x := lcx d w b
      let cl := accs.foldl (fun cl a => scratchPut cl c.sbase t a.elem (x.read f.s1.toNat t a.lane)) (d.cluster w.cluster)
      let cl := cleanBanks cl c.sbase (coveredBanks (accs.map (fun a => elemHalves t a.elem)))
      laneNext (d.setCluster w.cluster cl) k w b f))

def execSts (f : LaneWord) (s : State) : Host.Outcome State Fault Refusal := laneWord s (stsWord f)

/-- LD_TAP (R183, R186). -/
def tapWord (f : LaneWord) : Dev → Nat → Warp → Block → Dev :=
  laneChecked ⟨fun t => t == 15, mod0, true, .unused, .src 6, .unused, .unused, .unused⟩ f true false
    (scratchWord 15 false true f (fun _ _ d k w b => laneNext d k w b f))

def execLdTap (f : LaneWord) (s : State) : Host.Outcome State Fault Refusal := laneWord s (tapWord f)

/-! ### Remote access (R194, R195) -/

/-- A crew of the gang, resident or exited with its scratch retained (R406); true when it has exited. -/
def gangCrew (d : Dev) (c : Crew) (cidx : Nat) : Option (Crew × Bool) :=
  match d.crews.find? (fun e => e.2.id.part == c.id.part && e.2.id.nest == c.id.nest && e.2.gang == c.gang && e.2.cidx == cidx) with
  | some e => some (e.2, false)
  | none =>
    ((d.nests.get? c.id.nest).bind (fun n => n.retained.find? (fun e => e.1 == c.gang && e.2.cidx == cidx))).map (fun e => (e.2, true))

/-- The common part of ldr and str: checks of all lanes, then one request per lane (R194). `kind` and `data` say what is asked. -/
def remoteWord (row : LaneRow) (t : Nat) (f : LaneWord) (kind : OpKind) (data : Lcx → Nat → Nat) : Dev → Nat → Warp → Block → Dev :=
  laneChecked row f true false (fun d k w b =>
    let x := lcx d w b
    let on := execMask w b f
    let size := elemSize t
    let l := (lanesOn on).map (fun i => (i, x.read f.s0.toNat 6 i, x.read f.s1.toNat 6 i))
    match d.crewOf w with
    | none => laneNext d k w b f
    | some c =>
      let gang := ((d.nestOf w).map (·.gangSize)).getD 1
      let mis := fun (e : Nat × Nat × Nat) => e.2.2 % size != 0
      let out := fun (e : Nat × Nat × Nat) => gang ≤ e.2.1 || c.ssize < e.2.2 + size
      match l.find? mis with
      | some e => laneTrap d k w b .align (maskOf ((l.filter mis).map (·.1))) (BitVec.ofNat 64 e.2.2)
      | none =>
        if l.any out then laneTrap d k w b .prot (maskOf ((l.filter out).map (·.1))) (BitVec.ofNat 64 FCode.outside.num)
        else if memWait d k w .x [] then laneStall d k w
        else
          issueMem .x kind f.hint.toNat 0
            ((row.dRole f).regs f.dst.toNat ++ (match kind.latch with
              | some i => [1536 + i]
              | none => [])) on
            (fun o => { o with remotes := l.map (fun e =>
              (e.1, ⟨e.2.1, e.2.2, size, BitVec.ofNat 64 (data x e.1), false, false, false⟩)) }) [] d k w b f)

/-- LDR (R194). -/
def ldrWord (f : LaneWord) : Dev → Nat → Warp → Block → Dev :=
  let t := f.ty.toNat
  remoteWord ⟨tyMove, mod0, true, .dst t, .src 6, .src 6, .unused, .unused⟩ t f (.ldr t f.dst.toNat f.lsel.toNat (f.nowb == 1)) (fun _ _ => 0)

def execLdr (f : LaneWord) (s : State) : Host.Outcome State Fault Refusal := laneWord s (ldrWord f)

/-- STR (R194). -/
def strWord (f : LaneWord) : Dev → Nat → Warp → Block → Dev :=
  let t := f.ty.toNat
  remoteWord ⟨tyMove, mod0, true, .unused, .src 6, .src 6, .src t, .unused⟩ t f .str (fun x i => x.read f.s2.toNat t i)

def execStr (f : LaneWord) (s : State) : Host.Outcome State Fault Refusal := laneWord s (strWord f)

/-- A request of the warp to the same crew that was issued before this one is still to be performed (R194). -/
def remoteBefore (d : Dev) (k id lane crew : Nat) : Bool :=
  d.ops.any (fun e => e.2.warp == k && e.1 ≤ id && e.2.remotes.any (fun r =>
    r.2.crew == crew && !r.2.done && (e.1 < id || r.1 < lane)))

/-- A store waits for a filling or busy-held window (R195). -/
def remoteHeld (c : Crew) (off : Nat) : Bool :=
  match c.windowAt off with
  | some n => (c.win n).state == .filling || (c.win n).holds != 0
  | none => false

/-- REMOTE_SCRATCH_ACCESS (R194, R195, R406): a lane's request is performed at the target's cluster. -/
def remoteAccessD (id lane : Nat) (d : Dev) : Dev :=
  match d.ops.get? id with
  | none => d
  | some o =>
    match o.remotes.get? lane, (d.warps.get? o.warp).bind d.crewOf with
    | some r, some own =>
      if r.done || remoteBefore d o.warp id lane r.crew then d
      else
        let put := fun (d : Dev) (r : Remote) => { d with ops := d.ops.set id { o with remotes := o.remotes.set lane { r with done := true } } }
        match gangCrew d own r.crew with
        | none => put d r
        | some (c, gone) =>
          let cl := d.cluster c.cluster
          match o.kind with
          | .ldr .. =>
            put d { r with data := BitVec.ofNat 64 (memReadN cl.scratch (c.sbase + r.off) r.size), poison := cl.spoison.contains ((c.sbase + r.off) / 16) }
          | _ =>
            if gone then put d r
            else if remoteHeld c r.off then d
            else
              let performed := (o.remotes.filter (fun e => e.2.crew == r.crew && (e.2.done || e.1 == lane))).map (fun e => (2 * e.2.off, 2 * e.2.size))
              let cl := cleanBanks (scratchWrite cl (c.sbase + r.off) r.size r.data.toNat) c.sbase (coveredBanks performed)
              put (d.setCluster c.cluster cl) r
    | _, _ => d

def execRemoteScratchAccess (op lane : Nat) (s : State) : Host.Outcome State Fault Refusal := eventStep s (remoteAccessD op lane)

/-- REMOTE_SCRATCH_RETURN (R194, R196, R390): the lane's data or acknowledgement come back. -/
def remoteReturnD (id lane : Nat) (d : Dev) : Dev :=
  match d.ops.get? id with
  | none => d
  | some o =>
    match o.remotes.get? lane with
    | none => d
    | some r =>
      if !r.done || r.back then d
      else
        let o1 := { o with remotes := o.remotes.set lane { r with back := true } }
        match o.kind with
        | .ldr t dst lsel nowb =>
          let o1 := if r.poison then { o1 with bad := o1.bad ++ [(lane, bankLoc r.off)] } else o1
          let d := { d with ops := d.ops.set id o1 }
          completeOp (writeBack d o t dst lsel nowb [(lane, if r.poison then 0 else r.data.toNat)]) id
        | _ => completeOp { d with ops := d.ops.set id o1 } id

def execRemoteScratchReturn (op lane : Nat) (s : State) : Host.Outcome State Fault Refusal := eventStep s (remoteReturnD op lane)

end Sys2Proof.Machine
end

