-- ==== Sys2Proof/Machine/Groups.lean ====
section
/-!
DEFINITION. Multicast group loads (R151 to R170, R477): mcjoin, mcleave, and the steps of a group-load record.
-/
namespace Sys2Proof.Machine

/-! ### Groups -/

/-- The record pan of a group (R152). -/
def recordPan (d : Dev) (p gid : Nat) : Nat := (d.part p).basePan + gid % (d.part p).pans

def Dev.group (d : Dev) (p gid : Nat) : Option Group := (d.part p).groups.get? gid
def Dev.setGroup (d : Dev) (p gid : Nat) (g : Group) : Dev := d.setPart p { d.part p with groups := (d.part p).groups.set gid g }
def Dev.modGroup (d : Dev) (p gid : Nat) (f : Group → Group) : Dev :=
  d.setPart p { d.part p with groups := (d.part p).groups.modify gid f }

def Group.mask (g : Group) : Mask := maskOf g.members.keys

/-- The records of a pan. -/
def Dev.setRecords (d : Dev) (pan : Nat) (l : List GRec) : Dev := d.setPan pan { d.pan pan with records := l }

def GRec.active (r : GRec) : Bool := r.state == .offering || r.state == .filling || r.state == .completing

def holdingOf (gid : Nat) (r : GRec) : Bool := r.gid == gid && r.state == .holding
def activeOf (gid : Nat) (r : GRec) : Bool := r.gid == gid && r.active

/-- Changes the first record that meets a test. -/
def modFirst (f : GRec → Bool) (g : GRec → GRec) : List GRec → List GRec
  | [] => []
  | r :: rest => if f r then g r :: rest else r :: modFirst f g rest

def dropFirst (f : GRec → Bool) : List GRec → List GRec
  | [] => []
  | r :: rest => if f r then rest else r :: dropFirst f rest

def Dev.modRec (d : Dev) (p gid : Nat) (f : GRec → Bool) (g : GRec → GRec) : Dev :=
  d.setRecords (recordPan d p gid) (modFirst f g (d.pan (recordPan d p gid)).records)

/-- Adds a record; a full pan drops its oldest lingering one (R160): the one created first (log 101). -/
def addRec (l : List GRec) (r : GRec) : List GRec :=
  (if l.length < 32 then l else dropFirst (fun x => x.state == .lingering) l) ++ [r]

/-- The resident crew of a member (R163). -/
def memberCrew (d : Dev) (g : Group) (m : Nat) : Option (Nat × Crew) :=
  (g.members.get? m).bind (fun e => (d.crews.get? e.1).bind (fun c => if c.id = e.2.1 then some (e.1, c) else none))

/-- The member's window bound to the group. -/
def groupWin (c : Crew) (gid : Nat) : Option (Nat × Win) :=
  c.wins.find? (fun e => e.2.valid && dGen e.2.desc && dGid e.2.desc == gid)

/-- An arrival for a crew from outside its warps: applied when the crew is in its slot, else returned to the pan (R405). -/
def sendArrival (d : Dev) (ck : Nat) (id : CrewId) (gate : Nat) : Dev :=
  match d.crews.get? ck with
  | some c => if c.id = id then d.modCrew ck (·.arrive gate) else { d with arrs := d.arrs ++ [⟨ck / 32, ck % 32, id, gate, true⟩] }
  | none => { d with arrs := d.arrs ++ [⟨ck / 32, ck % 32, id, gate, true⟩] }

/-! ### mcjoin and mcleave -/

/-- MCJOIN (R153). -/
def mcjoinWord (f a b : BitVec 6) : Dev → Nat → Warp → Dev :=
  checked [ckZero (f == 0#6)] (interlock [a.toNat, b.toNat] (fun d k w =>
    let sa := w.s a.toNat
    let sb := w.s b.toNat
    let count := bits sb 6 0
    let midx := bits sb 13 8
    let cge := bit sb 14
    let cgate := bits sb 19 16
    match d.crewOf w with
    | none => done d k w 4
    | some c =>
      if bits sa 63 48 ≠ 0 then illegal d k w (.illOpnd, 5)
      else if bit sb 7 ∨ bit sb 15 ∨ bits sb 31 20 ≠ 0 ∨ count = 0 ∨ 64 < count ∨ count ≤ midx ∨ (cge ∧ (c.gate cgate).n = 0) then
        illegal d k w (.illOpnd, 6)
      else withXlate d k w (bits sa 47 6 * 64) .write 1 (fun cpa _ =>
        let p := c.id.part
        let gid := bits sa 5 0
        let me : Nat × CrewId × Bool × Nat := (w.crewKey, c.id, cge, cgate)
        let joined := fun (g : Group) =>
          done ((d.setGroup p gid { g with members := g.members.set midx me }).modCrew w.crewKey (fun c =>
            { c with groups := c.groups ++ [(gid, midx)] })) k w 4
        match d.group p gid with
        | none => joined ⟨count, bits sb 47 32, bits sb 63 48, cpa, [], 0, [], []⟩
        | some g =>
          if g.cpa ≠ cpa then illegal d k w (.illOpnd, 5)
          else if g.count ≠ count ∨ g.timer ≠ bits sb 47 32 ∨ g.linger ≠ bits sb 63 48 then illegal d k w (.illOpnd, 6)
          else if (g.members.get? midx).isSome ∨ g.members.any (fun m => m.2.2.1 == c.id) then illegal d k w (.illOpnd, 6)
          else joined g)))

def execMcjoin (d a b : BitVec 6) (s : State) : Host.Outcome State Fault Refusal := scalarWord s (mcjoinWord d a b)

/-- The 64 bytes of a completion record (R165, R169). -/
def completionBytes (r : GRec) : Nat :=
  let err := r.status = 2
  (if err then 0 else (r.offered &&& ~~~ r.accepted).toNat) + 2 ^ 64 * r.ask.toNat +
    2 ^ 128 * (if err then 0 else r.done.toNat) + 2 ^ 192 * r.srcpa + 2 ^ 256 * (r.seq % 2 ^ 32) +
    2 ^ 288 * (r.size / 64) + 2 ^ 304 * r.status + 2 ^ 312 * ((if r.dataErr && !err then 1 else 0) + (if r.left then 2 else 0)) +
    2 ^ 320 * r.init + 2 ^ 384 * r.errpa

/-- A fill that the crew has accepted for the group is still under way (R155); a resend under way counts as one (log 101). -/
def acceptedFill (c : Crew) (gid : Nat) : Bool :=
  match groupWin c gid with
  | some (_, x) => x.state == .filling && x.filler == .fill
  | none => false

/-- A load of the group is under way, or its completion record is still to be performed. -/
def groupBusy (d : Dev) (p gid : Nat) : Bool :=
  (d.pan (recordPan d p gid)).records.any (fun r => activeOf gid r || (r.gid == gid && r.state == .failing))

/-- These crews can leave their groups: a group whose last members leave has no completion record to write any more (R154, R155; log 89). -/
def leaveReady (d : Dev) (l : List Crew) : Bool :=
  l.all (fun c => c.groups.all (fun e => match d.group c.id.part e.1 with
    | some g => !(groupBusy d c.id.part e.1 && g.members.all (fun m => l.any (fun c => c.id == m.2.2.1)))
    | none => true))

/-- Takes a member out of its group, which disbands with its last member: its records and its asks go (R155, R162). -/
def leaveGroup (d : Dev) (ck gid : Nat) (c : Crew) : Dev :=
  let p := c.id.part
  match d.group p gid with
  | none => d
  | some g =>
    let d := match groupWin c gid with
      | some (n, x) => if x.state == WState.filling && x.filler == Filler.ask then d.winAbsent ck n x else d
      | none => d
    let d := d.modCrew ck (fun c => { c with groups := c.groups.filter (fun e => e.1 != gid) })
    let rest := g.members.filter (fun m => m.2.2.1 != c.id)
    let d := d.modRec p gid (holdingOf gid) (fun r => { r with left := true })
    if rest.isEmpty then
      let pan := recordPan d p gid
      let d := d.setRecords pan ((d.pan pan).records.filter (fun r => r.gid != gid))
      d.setPart p { d.part p with groups := (d.part p).groups.erase gid }
    else d.setGroup p gid { g with members := rest }

/-- MCLEAVE (R155). -/
def mcleaveWord (f a b : BitVec 6) : Dev → Nat → Warp → Dev :=
  checked [ckZero (f == 0#6 && b == 0#6)] (interlock [a.toNat] (fun d k w =>
    let gid := bits (w.s a.toNat) 5 0
    match d.crewOf w with
    | none => done d k w 4
    | some c =>
      if !c.groups.any (fun e => e.1 == gid) then done d k w 4
      else if acceptedFill c gid || !leaveReady d [c] then stall d k w
      else
        let d := leaveGroup d w.crewKey gid c
        done d k { w with lready := ((d.warps.get? k).map (·.lready)).getD w.lready } 4))

def execMcleave (d a b : BitVec 6) (s : State) : Host.Outcome State Fault Refusal := scalarWord s (mcleaveWord d a b)

/-! ### The completion record (R165, R166, R169) -/

/-- One arrival on INIT's completion gate, if it is still a member that asked for it (R166): not to another crew that has joined at its
index since. -/
def initArrival (d : Dev) (g : Group) (r : GRec) : Dev :=
  match g.members.get? r.init with
  | some (ck, id, true, gate) => if id = r.initId then sendArrival d ck id gate else d
  | _ => d

/-! ### Asks (R162, R477) -/

/-- Sends the offers: the record leaves holding (R161, R162). -/
def releaseRec (d : Dev) (p gid status : Nat) : Dev :=
  match d.group p gid with
  | none => d
  | some g =>
    let g := { g with seq := g.seq + 1 }
    (d.setGroup p gid g).modRec p gid (holdingOf gid) (fun r =>
      { r with state := .offering, offered := g.mask, seq := g.seq, status := status })

/-- Releases a holding record that is ready by its asks (R161), when no other load of the group is under way (R160). -/
def releaseIfReady (d : Dev) (p gid : Nat) : Dev :=
  match d.group p gid with
  | none => d
  | some g =>
    let recs := (d.pan (recordPan d p gid)).records
    match recs.find? (holdingOf gid) with
    | some r =>
      if recs.any (activeOf gid) then d
      else if r.ask = g.mask ∧ g.members.length = g.count then releaseRec d p gid 0
      else if g.timer ≤ 3 * (d.clock - r.born) then releaseRec d p gid 1
      else d
    | none => d

/-- A saved crew by its identity. -/
def savedCrew (d : Dev) (id : CrewId) : Option Crew :=
  ((d.nests.map (·.2) ++ d.savedNests.map (·.nest)).flatMap (fun n => n.saved.flatMap (fun g => g.map (·.crew)))).find? (fun c => c.id == id)

/-- Changes a saved crew. -/
def Dev.modSaved (d : Dev) (id : CrewId) (f : Crew → Crew) : Dev :=
  let nest := fun (n : Nest) => { n with saved := n.saved.map (fun g => g.map (fun x => if x.crew.id = id then { x with crew := f x.crew } else x)) }
  { d with
    nests := d.nests.map (fun e => (e.1, nest e.2))
    savedNests := d.savedNests.map (fun e => { e with nest := nest e.nest }) }

/-- The window takes a group error: it is absent or waits on its own ask (R169); a save has withdrawn the ask (R192). -/
def Win.errs (x : Win) : Bool := x.state == .absent || (x.state == .filling && (x.filler == .ask || (x.filler == .none && x.asking == 2)))

/-- The window with GERR set (R169). -/
def Win.erred (x : Win) : Win := { x with state := .absent, filler := .none, asking := 0, gerr := true }

/-- The group error at a member that is saved: its window in the context, and the arrival for its mailbox (R169, R404). -/
def savedError (d : Dev) (gid : Nat) (id : CrewId) : Dev :=
  match (savedCrew d id).bind (fun c => (groupWin c gid).map (fun e => (c, e))) with
  | some (c, n, x) =>
    if !x.errs then d
    else
      let d := d.modSaved id (fun c => { c with wins := c.wins.set n x.erred })
      if x.state = .filling ∧ !dGnone x.desc then sendArrival d (c.cluster * 32 + c.cslot) id (dGate x.desc) else d
  | none => d

/-- A group error (R169): the record is to be written and freed (COMPLETION_WRITE_PERFORMED), and members' windows get GERR. -/
def groupError (d : Dev) (p gid : Nat) (errpa : Nat) : Dev :=
  match d.group p gid with
  | none => d
  | some g =>
    let d := d.modRec p gid (holdingOf gid) (fun r => { r with state := .failing, status := 2, errpa := errpa, seq := g.seq })
    g.members.foldl (fun d m =>
      match memberCrew d g m.1 with
      | none => savedError d gid m.2.2.1
      | some (ck, c) =>
        match groupWin c gid with
        | none => d
        | some (n, x) =>
          if x.errs then
            let d := wakeStreams (d.setWin ck n x.erred) ck n
            if x.state = .filling then arriveWin d ck x else d
          else d) d

/-- A resend to one member from a lingering record (R167), when its window still waits on its own ask. -/
def startResend (d : Dev) (p gid m srcpa size : Nat) : Dev :=
  match d.group p gid with
  | none => d
  | some g =>
    match (memberCrew d g m).bind (fun e => (groupWin e.2 gid).map (fun x => (e.1, x))) with
    | some (ck, n, x) =>
      if x.state = .filling ∧ x.filler = .ask then
        (d.setWin ck n { x with filler := .fill, got := 0 }).setGroup p gid { g with resends := g.resends ++ [(m, srcpa, size)] }
      else d
    | none => d

/-- Routes one ask (R162, R477). -/
def routeAsk (d : Dev) (p gid m srcpa size : Nat) : Dev :=
  match d.group p gid with
  | none => d
  | some g =>
    match g.members.get? m with
    | none => d
    | some who =>
      let pan := recordPan d p gid
      let recs := (d.pan pan).records
      let same := fun (r : GRec) => r.gid == gid && r.state != .holding && r.state != .failing && r.srcpa == srcpa && r.size == size
      let bitm := BitVec.ofNat 64 (2 ^ m)
      match recs.find? same, recs.find? (holdingOf gid) with
      | some r, _ =>
        if r.state = .lingering then startResend d p gid m srcpa size
        else if r.accepted.getLsbD m then d
        else d.setRecords pan (modFirst same (fun r => { r with waiting := r.waiting ++ [(m, srcpa, size)] }) recs)
      | none, some r =>
        if r.srcpa = srcpa ∧ r.size = size then
          releaseIfReady (d.setRecords pan (modFirst (holdingOf gid) (fun r => { r with ask := r.ask ||| bitm }) recs)) p gid
        else groupError d p gid srcpa
      | none, none =>
        let r : GRec := ⟨gid, .holding, srcpa, size, m, who.2.1, bitm, d.clock, 0, 0, 0, 0, 0, 0, 0, 0, false, false, 0, [], [], 0, false, none⟩
        releaseIfReady (d.setRecords pan (addRec recs r)) p gid

/-- An ask that a restore has started again is sent once its source is translated (R192, R398): no word waits for it. A record makes the
warps that wait for the window wait for it. -/
def resendAsk (d : Dev) (ck n : Nat) : Dev :=
  match sendAsk d ck n with
  | (d, some (.record q)) =>
    { d with warps := d.warps.map (fun e => if e.2.crewKey ≠ ck then e else match e.2.lpark with
      | .window l fs fr => if l.contains n then (e.1, { e.2 with lpark := .window l (fs ++ [q]) fr }) else e
      | _ => e) }
  | (d, _) => d

/-- The asks of members of a group that a restore has started again. -/
def restoredAsks (d : Dev) (p gid : Nat) : List (Nat × Nat) :=
  d.crews.flatMap (fun e => if e.2.id.part ≠ p then [] else
    (e.2.wins.filter (fun x => x.2.state == .filling && x.2.filler == .ask && x.2.asking == 2 && dGid x.2.desc == gid)).map (fun x => (e.1, x.1)))

/-- GROUP_ASK (R477): the record pan takes the oldest ask of the group. -/
def groupAskD (p gid : Nat) (d : Dev) : Dev :=
  let d := (restoredAsks d p gid).foldl (fun d e => resendAsk d e.1 e.2) d
  match d.group p gid with
  | none => d
  | some g =>
    match g.asks with
    | [] => d
    | (m, pa, size) :: rest => routeAsk (d.setGroup p gid { g with asks := rest }) p gid m pa size

def execGroupAsk (part gid : Nat) (s : State) : Host.Outcome State Fault Refusal := eventStep s (groupAskD part gid)

/-- GROUP_TIMER_EXPIRY (R161): a holding record that is ready, by its timer or its asks, is released. -/
def execGroupTimerExpiry (part gid : Nat) (s : State) : Host.Outcome State Fault Refusal := eventStep s (fun d => releaseIfReady d part gid)

/-! ### Offers and fills -/

/-- The active record of a group. -/
def activeRec (d : Dev) (p gid : Nat) : Option GRec := (d.pan (recordPan d p gid)).records.find? (activeOf gid)

/-- The answer of a member's cluster (R163): the window that accepts. A window that a resend fills, and a crew that is being discarded, refuse
(log 101), and so does one of another size that fills on its own ask: R163 has a row for either. -/
def offerAnswer (c : Crew) (gid size : Nat) : Option (Nat × Win) :=
  match groupWin c gid with
  | some (n, x) =>
    if x.gerr || dSize x.desc != size || c.save == .full || c.save == .atPoint || c.save == .discard then none
    else if x.state == .absent || (x.state == .filling && x.filler == .ask) then some (n, x) else none
  | none => none

/-- GROUP_OFFER (R163). -/
def groupOfferD (p gid m : Nat) (d : Dev) : Dev :=
  match d.group p gid, activeRec d p gid with
  | some g, some r =>
    if r.state ≠ .offering ∨ !r.offered.getLsbD m ∨ r.sent.getLsbD m then d
    else
      let b := BitVec.ofNat 64 (2 ^ m)
      match (memberCrew d g m).bind (fun e => (offerAnswer e.2 gid r.size).map (fun x => (e.1, x))) with
      | some (ck, n, x) =>
        (d.setWin ck n { x with state := .filling, filler := .fill, got := 0 }).modRec p gid (activeOf gid) (fun r =>
          { r with sent := r.sent ||| b, accepted := r.accepted ||| b })
      | none => d.modRec p gid (activeOf gid) (fun r => { r with sent := r.sent ||| b })
  | none, some _ =>
    d.modRec p gid (activeOf gid) (fun r => { r with sent := r.sent ||| BitVec.ofNat 64 (2 ^ m) })
  | _, _ => d

def execGroupOffer (part gid mem : Nat) (s : State) : Host.Outcome State Fault Refusal := eventStep s (groupOfferD part gid mem)

/-- GROUP_ANSWER (R162, R163): an answer reaches the record pan; with the last, the lines are asked for. -/
def groupAnswerD (p gid m : Nat) (d : Dev) : Dev :=
  match activeRec d p gid with
  | some r =>
    if r.state ≠ .offering ∨ !r.sent.getLsbD m ∨ r.answered.getLsbD m then d
    else
      d.modRec p gid (activeOf gid) (fun r =>
        let r := { r with answered := r.answered ||| BitVec.ofNat 64 (2 ^ m) }
        if r.answered = r.offered then { r with state := if r.accepted = 0 then .completing else .filling } else r)
  | none => d

def execGroupAnswer (part gid mem : Nat) (s : State) : Host.Outcome State Fault Refusal := eventStep s (groupAnswerD part gid mem)

/-- Nothing holds a line back (R170): it is not locked, owned, filling, moving or in a draining way, at the pan that holds it. -/
def lineFree (d : Dev) (l : Nat) : Bool :=
  d.pans.all (fun e => !locked e.2 l && (match e.2.line l with
    | some x => !x.owned d.clock && !x.filling && !x.moving && e.2.draining != some x.way
    | none => true))

/-- A line may be sent (R170): its pan has all of it. -/
def lineSendable (d : Dev) (p l : Nat) : Bool :=
  lineFree d l && missing (d.pan (currentPan d p l)) (Sub.new l .load) == 0

/-- A line that its pan does not have is fetched (R170), once the notice of a pan that has evicted it has come (R108). -/
def lineFetch (d : Dev) (p l : Nat) : Dev :=
  let pan := currentPan d p l
  if lineFree d l && missing (d.pan pan) (Sub.new l .load) != 0 && (pan == panOf d p l || ((d.pan pan).line l).isSome) then
    (startFill d pan (Sub.new l .load)).getD d
  else d

/-- A line arrives at a member's window (R164): its bytes, its poison, and at the last line the arrival. Answers whether it was
the last. -/
def fillLine (d : Dev) (ck n : Nat) (c : Crew) (x : Win) (i size : Nat) (data : Line) (poison : BitVec 4) : Dev × Bool :=
  let base := c.sbase + dSoff x.desc + 64 * i
  let cl := scratchWrite (cleanScratch (d.cluster c.cluster) base 64) base 64 data.toNat
  let bad := (List.range 4).filterMap (fun j => if poison.getLsbD j then some (base / 16 + j) else none)
  let d := d.setCluster c.cluster { cl with spoison := bad ++ cl.spoison }
  let got := x.got ||| 2 ^ i
  if got = 2 ^ (size / 64) - 1 then (fillDone d ck n, true) else (d.setWin ck n { x with got := got }, false)

/-- GROUP_FILL_LINE (R164, R167, R170): line i of a group fill, or of a resend, reaches a member. -/
def groupFillLineD (p gid m i : Nat) (d : Dev) : Dev :=
  match d.group p gid with
  | none => d
  | some g =>
    match memberCrew d g m with
    | none => d
    | some (ck, c) =>
      match groupWin c gid with
      | none => d
      | some (n, x) =>
        if x.state ≠ .filling ∨ x.filler ≠ .fill ∨ x.got.testBit i then d
        else
          match g.resends.find? (fun r => r.1 == m) with
          | some (_, srcpa, size) =>
            let l := srcpa / 64 + i
            if size / 64 ≤ i then d
            else if !lineSendable d p l then lineFetch d p l
            else
              let (d, last) := fillLine d ck n c x i size (lineAt d l) (linePoison d l)
              if last then d.modGroup p gid (fun g => { g with resends := g.resends.filter (fun r => r.1 != m) }) else d
          | none =>
            match activeRec d p gid with
            | none => d
            | some r =>
              let l := r.srcpa / 64 + i
              if r.state ≠ .filling ∨ !r.accepted.getLsbD m ∨ r.filled.getLsbD m ∨ r.size / 64 ≤ i then d
              else
                match (match r.lines.get? i with
                  | some v => some v
                  | none => if lineSendable d p l then some (lineAt d l, linePoison d l) else none) with
                | none => lineFetch d p l
                | some (data, bad) =>
                  let (d, last) := fillLine d ck n c x i r.size data bad
                  d.modRec p gid (activeOf gid) (fun r =>
                    { r with
                      lines := r.lines.set i (data, bad)
                      dataErr := r.dataErr || bad != 0
                      filled := if last then r.filled ||| BitVec.ofNat 64 (2 ^ m) else r.filled })

def execGroupFillLine (part gid mem line : Nat) (s : State) : Host.Outcome State Fault Refusal :=
  eventStep s (groupFillLineD part gid mem line)

/-- GROUP_DONE (R162): DONE from an accepting member reaches the record pan. -/
def groupDoneD (p gid m : Nat) (d : Dev) : Dev :=
  match activeRec d p gid with
  | some r =>
    if r.state ≠ .filling ∨ !r.filled.getLsbD m then d
    else d.modRec p gid (activeOf gid) (fun r =>
      let r := { r with done := r.done ||| BitVec.ofNat 64 (2 ^ m) }
      if r.done = r.accepted then { r with state := .completing } else r)
  | none => d

def execGroupDone (part gid mem : Nat) (s : State) : Host.Outcome State Fault Refusal := eventStep s (groupDoneD part gid mem)

/-- A completion record that is to be written. -/
def dueOf (gid : Nat) (r : GRec) : Bool := r.gid == gid && (r.state == .failing || r.state == .completing)

/-- COMPLETION_WRITE_PERFORMED (R162, R165, R166, R169): the first record that is due is stored, INIT's arrival is made, and queued asks go
on. -/
def completionWriteD (p gid : Nat) (d : Dev) : Dev :=
  let pan := recordPan d p gid
  match (d.pan pan).records.find? (dueOf gid), d.group p gid with
  | some r, some g =>
    match agentPutAt d p r.put [] g.cpa 64 (completionBytes r) with
    | .busy d op => d.modRec p gid (dueOf gid) (fun r => { r with put := op })
    | .fault _ => d
    | .done d =>
      let d := initArrival d g r
      if r.state = .failing then d.setRecords pan (dropFirst (dueOf gid) (d.pan pan).records)
      else
        let d := if g.linger = 0 then
            let d := d.setRecords pan (dropFirst (dueOf gid) (d.pan pan).records)
            r.waiting.foldl (fun d a => routeAsk d p gid a.1 a.2.1 a.2.2) d
          else
            let d := d.modRec p gid (dueOf gid) (fun r => { r with state := .lingering, linger := d.clock, waiting := [], lines := [] })
            r.waiting.foldl (fun d a => if (g.members.get? a.1).isSome then startResend d p gid a.1 a.2.1 a.2.2 else d) d
        releaseIfReady d p gid
  | _, _ => d

def execCompletionWritePerformed (part gid : Nat) (s : State) : Host.Outcome State Fault Refusal := eventStep s (completionWriteD part gid)

/-- LINGER_EXPIRY (R162): the record at a place of the pan's list has lingered long enough. -/
def lingerExpiryD (p gid pos : Nat) (d : Dev) : Dev :=
  let pan := recordPan d p gid
  match (d.pan pan).records[pos]?, d.group p gid with
  | some r, some g =>
    if r.gid = gid ∧ r.state = .lingering ∧ g.linger ≤ 3 * (d.clock - r.linger) then d.setRecords pan ((d.pan pan).records.eraseIdx pos) else d
  | _, _ => d

def execLingerExpiry (part gid pos : Nat) (s : State) : Host.Outcome State Fault Refusal := eventStep s (lingerExpiryD part gid pos)

end Sys2Proof.Machine
end

