-- ==== Sys2Proof/WellFormed.lean ====
section
/-!
DEFINITION. Well-formed instructions: those whose fields a word of the opcode map can carry, with every reserved field zero
(R28, R31, R34, R37, R56 to R62). The traps that an ill-formed word raises, and their order, are in Machine/Check.lean.
-/
namespace Sys2Proof

/-- A 64-bit type code (R34). -/
def wideTy (t : Nat) : Bool := t == 3 || t == 7

/-- What an opcode lets an operand field of a lane word hold, from the map of R61 and the codes of R36; sources and
destinations carry a type code. -/
inductive Use where
  /-- not used: 2047 (R37) -/
  | none
  /-- a register (an even one for a 64-bit type, R35), a latch, a predicate, or a code of R38 and R39 -/
  | src (t : Nat)
  /-- a predicate -/
  | psrc
  /-- a register, even for a 64-bit type -/
  | dst (t : Nat)
  /-- a predicate to write -/
  | pdst
  /-- the first of n registers, a multiple of m -/
  | block (n m : Nat)
  /-- a conversion's source type (R62) -/
  | ty
  deriving DecidableEq, Repr

def Use.ok (u : Use) (f : BitVec 11) : Bool :=
  let c := f.toNat
  match u with
  | .none => f == 2047#11
  | .src t => (c < 1536 && (!wideTy t || c % 2 == 0)) || (1536 ≤ c && c < 1568) || (1600 ≤ c && c < 1764)
  | .psrc | .pdst => 1544 ≤ c && c < 1568
  | .dst t => c < 1536 && (!wideTy t || c % 2 == 0)
  | .block n m => c % m == 0 && c + n ≤ 1536
  | .ty => c < 15

/-- A guard field names a predicate or "always" (R40). -/
def guardNamed (g : BitVec 6) : Bool := g.toNat % 32 < 24 || g.toNat % 32 == 31

/-- Operand fields D, S0, S1, S2, S3 as used, guards named, and the hint 0, or 0 to 6 in a memory word (R37, R45, R48). -/
def laneOk (mem : Bool) (f : LaneWord) (d s0 s1 s2 s3 : Use) : Bool :=
  (if f.nowb = 1#1 then Use.none else d).ok f.dst && s0.ok f.s0 && s1.ok f.s1 && s2.ok f.s2 && s3.ok f.s3 &&
    guardNamed f.gA && guardNamed f.gB && (if mem then f.hint.toNat < 7 else f.hint == 0#3)

/-- A word with a destination and one, two or three sources of its type. -/
def lane1 (f : LaneWord) : Bool := laneOk false f (.dst f.ty.toNat) (.src f.ty.toNat) .none .none .none
def lane2 (f : LaneWord) : Bool := laneOk false f (.dst f.ty.toNat) (.src f.ty.toNat) (.src f.ty.toNat) .none .none
def lane3 (f : LaneWord) : Bool := laneOk false f (.dst f.ty.toNat) (.src f.ty.toNat) (.src f.ty.toNat) (.src f.ty.toNat) .none

/-- The type codes of the F types of R61. -/
def floatTy (t : Nat) : Bool := t == 8 || t == 9 || t == 10

/-- The type pairs of a conversion (R62). -/
def cvtTypes (t s : Nat) : Bool := t < 15 && s < 15 && t != s && (t < 13 || floatTy s) && (s < 13 || floatTy t)

/-- Reserved fields of a scalar word are zero and its predicate, gate, tile and literal numbers are in range (R28, R58). -/
def wfInstr : Instr → Bool
  | .popc _ _ b t | .clz _ _ b t => b == 0#6 && (t == 1#2 || t == 3#2)
  | .and _ _ _ t | .or _ _ _ t | .xor _ _ _ t | .shl _ _ _ t | .shr _ _ _ t | .sra _ _ _ t => t == 1#2 || t == 3#2
  | .cmp d _ _ c r _ => d.toNat < 8 && c.toNat < 6 && r == 0#3
  | .garrive d a b | .gwait d a b => d == 0#6 && a.toNat < 16 && b == 0#6
  | .gtry d a _ => d.toNat < 8 && a.toNat < 16
  | .cwaitG d _ b | .cwaitX d _ b | .cwaitA d _ b | .cwaitT d _ b | .tokPass d _ b | .vshrink d _ b | .ret d _ b => d == 0#6 && b == 0#6
  | .fenceAcq d a b sc | .fenceRel d a b sc | .fenceFull d a b sc => d == 0#6 && a == 0#6 && b == 0#6 && sc.toNat < 6
  | .tokTake d a b | .halt d a b | .pdone d a b => d == 0#6 && a == 0#6 && b == 0#6
  | .vgrow d _ b => d.toNat < 8 && b == 0#6
  | .jtab d _ _ => d == 0#6
  | .srd _ a _ => a == 0#6
  | .swr d _ b => d == 0#6 && !(48 ≤ b.toNat && b.toNat ≤ 51)
  | .cclean a | .cflush a | .cdrop a | .czero a => a.toNat < 63
  | .trap d a _ | .sysc d a _ => d == 0#6 && a == 0#6
  | .shlB64Imm _ _ i | .shrB64Imm _ _ i | .sraB64Imm _ _ i => i.toNat < 64
  | .cmpiEqS64 d _ _ | .cmpiLtS64 d _ _ | .cmpiLtN64 d _ _ => d.toNat < 8
  | .land d a _ => d == 0#6 && a.toNat < 4
  | .mdrain d _ i => d.toNat < 16 && i.toNat < 1536
  | .winBind d a _ => d == 0#6 && a.toNat < 16
  | .winState _ a b => a.toNat < 16 && b == 0#6
  | .winFree d a b => d == 0#6 && a.toNat < 16 && b == 0#6
  | .mcjoin d _ _ | .kvinv d _ _ => d == 0#6
  | .mcleave d _ b | .mwait d _ b | .ppoint d _ b => d == 0#6 && b == 0#6
  | .mma d a b => d.toNat < 16 && a.toNat < 62 && b.toNat % 2 == 0
  | .mmaN128 d a b => d.toNat < 16 && d.toNat % 2 == 0 && a.toNat < 62 && b.toNat % 2 == 0
  | .mcommit _ a b => a == 0#6 && b == 0#6
  | .nestLaunch _ _ b => b == 0#6
  | .nestGrow _ _ b => b.toNat < 4
  | .nestIdx _ a b => a == 0#6 && b.toNat < 4
  | .satom d a b => d.toNat != 63 && a.toNat < 63 && b.toNat < 61
  | .collStart d _ b => d == 0#6 && b.toNat < 16
  | .laneNop f => laneOk false f .none .none .none .none .none && f.ty == 15#4 && f.mdf == 0#3
  | .laneMov f => lane1 f && f.ty.toNat < 13 && f.mdf == 0#3
  | .laneAdd f | .laneSub f | .laneMul f | .laneMin f | .laneMax f => lane2 f && f.ty.toNat < 11 && f.mdf == 0#3
  | .laneMulhi f => lane2 f && [2, 3, 6, 7].contains f.ty.toNat && f.mdf == 0#3
  | .laneMad f => lane3 f && f.ty.toNat < 8 && f.mdf == 0#3
  | .laneAbs f | .laneNeg f => lane1 f && [0, 1, 2, 3, 8, 9, 10].contains f.ty.toNat && f.mdf == 0#3
  | .laneSel f =>
    laneOk false f (.dst f.ty.toNat) (.src f.ty.toNat) (.src f.ty.toNat) .psrc .none && f.ty.toNat < 13 && f.mdf == 0#3
  | .laneAnd f | .laneOr f | .laneXor f | .laneShl f | .laneShr f | .laneSra f =>
    lane2 f && [6, 7].contains f.ty.toNat && f.mdf == 0#3
  | .laneNot f | .lanePopc f | .laneClz f => lane1 f && [6, 7].contains f.ty.toNat && f.mdf == 0#3
  | .laneCmp f =>
    laneOk false f .pdst (.src f.ty.toNat) (.src f.ty.toNat) .none .none && f.ty.toNat < 11 && (f.mdf.toNat < 6 || floatTy f.ty.toNat)
  | .fma f => lane3 f && floatTy f.ty.toNat && f.mdf == 0#3
  | .rndi f => lane1 f && floatTy f.ty.toNat && f.mdf.toNat < 4
  | .exp2 f | .log2 f | .rcp f | .rsqrt f | .sqrt f | .sin f | .cos f | .tanh f | .sigmoid f | .gelu f =>
    lane1 f && floatTy f.ty.toNat && f.mdf == 0#3
  | .cvt f =>
    laneOk false f (.dst f.ty.toNat) (.src f.s3.toNat) .none .none .ty && cvtTypes f.ty.toNat f.s3.toNat && f.mdf == 0#3
  | .pand f | .por f | .pxor f | .pandn f => laneOk false f .pdst .psrc .psrc .none .none && f.ty == 15#4 && f.mdf == 0#3
  | .pnot f => laneOk false f .pdst .psrc .none .none .none && f.ty == 15#4 && f.mdf == 0#3
  | .shfl f =>
    laneOk false f (.dst f.ty.toNat) (.src f.ty.toNat) (.src 6) (.src 6) .pdst && f.ty.toNat < 13 && f.mdf.toNat < 5
  | .lred f =>
    laneOk false f (.dst f.ty.toNat) (.src f.ty.toNat) (.src 6) .none .none && f.ty.toNat < 11 &&
      (f.mdf.toNat < 3 || (f.mdf.toNat < 6 && [6, 7].contains f.ty.toNat))
  | .vote f =>
    laneOk false f (if f.mdf.toNat < 2 then .pdst else .dst 7) .psrc .none .none .none && f.ty == 15#4 && f.mdf.toNat < 3
  | .laneLd f => laneOk true f (.dst f.ty.toNat) (.src 7) .none .none .none && f.ty.toNat < 15 && f.mdf == 0#3
  | .lds f => laneOk true f (.dst f.ty.toNat) (.src 6) .none .none .none && f.ty.toNat < 15 && f.mdf == 0#3
  | .laneSt f => laneOk true f .none (.src 7) (.src f.ty.toNat) .none .none && f.ty.toNat < 15 && f.mdf == 0#3
  | .sts f => laneOk true f .none (.src 6) (.src f.ty.toNat) .none .none && f.ty.toNat < 15 && f.mdf == 0#3
  | .ldTap f => laneOk true f .none (.src 6) .none .none .none && f.ty == 15#4 && f.mdf == 0#3
  | .pf f => laneOk true f .none (.src 7) .none .none .none && f.ty == 15#4 && f.mdf == 0#3
  | .ldr f => laneOk true f (.dst f.ty.toNat) (.src 6) (.src 6) .none .none && f.ty.toNat < 13 && f.mdf == 0#3
  | .str f => laneOk true f .none (.src 6) (.src 6) (.src f.ty.toNat) .none && f.ty.toNat < 13 && f.mdf == 0#3
  | .atom f =>
    laneOk true f (if wideTy f.ty.toNat then .block 3 2 else .block 2 1) (.src 6) (.src 7)
      (if f.mdf.getLsbD 0 then .block 8 8 else .src f.ty.toNat) (if f.mdf.getLsbD 0 then .none else .src f.ty.toNat) &&
      [2, 3, 6, 7].contains f.ty.toNat && f.mdf.toNat < 4
  | .kvx f => laneOk true f (.dst 7) (.src 7) (.src 7) (.src 7) .pdst && f.ty == 7#4 && f.mdf == 0#3
  | .unassignedScalarWord _ | .unassignedLaneWord _ => false
  | _ => true

end Sys2Proof
end

