-- ==== Sys2Proof/Decode.lean ====
section
/-!
DEFINITION. Decoding of the two instruction streams (R27 to R34, R54 to R62) and the encoder. Decoding is total on words:
a word whose opcode is unassigned decodes to UNASSIGNED_SCALAR_WORD or UNASSIGNED_LANE_WORD (R55, R61), whose meaning is
the illegal-instruction trap; only a byte string that ends inside a word is refused.
-/
namespace Sys2Proof

/-- Why a byte string holds no instruction. -/
inductive DecodeError where
  /-- The bytes end before the word (or the prefix pair, R30) does. -/
  | truncated
  deriving DecidableEq, Repr

/-- Form SR (R27). -/
def encSR (major d a b : BitVec 6) (minor : BitVec 8) : W32 := major ++ d ++ a ++ b ++ minor
/-- Form SI (R27). -/
def encSI (major d a : BitVec 6) (imm : BitVec 14) : W32 := major ++ d ++ a ++ imm
/-- Form SB (R27, R32). -/
def encSB (major : BitVec 6) (p : BitVec 4) (o : BitVec 22) : W32 := major ++ p ++ o

def fMajor (w : W32) : BitVec 6 := w.extractLsb' 26 6
def fD (w : W32) : BitVec 6 := w.extractLsb' 20 6
def fA (w : W32) : BitVec 6 := w.extractLsb' 14 6
def fB (w : W32) : BitVec 6 := w.extractLsb' 8 6
def fMinor (w : W32) : BitVec 8 := w.extractLsb' 0 8
def fImm (w : W32) : BitVec 14 := w.extractLsb' 0 14

/-- Major 0, the ALU group (R57): minor[7:2] the operation, minor[1:0] the type code. -/
def decodeAlu (w : W32) (d a b : BitVec 6) (op : BitVec 6) (t : BitVec 2) : Instr :=
  match op.toNat with
  | 0 => .add d a b t
  | 1 => .sub d a b t
  | 2 => .mul d a b t
  | 3 => .mulhi d a b t
  | 4 => .and d a b t
  | 5 => .or d a b t
  | 6 => .xor d a b t
  | 7 => .shl d a b t
  | 8 => .shr d a b t
  | 9 => .sra d a b t
  | 10 => .min d a b t
  | 11 => .max d a b t
  | 12 => .popc d a b t
  | 13 => .clz d a b t
  | _ => .unassignedScalarWord w

/-- Major 2, the sync group (R58, R312). -/
def decodeSync (w : W32) (d a b : BitVec 6) (minor : BitVec 8) : Instr :=
  match minor.toNat with
  | 0 => .garrive d a b
  | 1 => .gwait d a b
  | 2 => .gtry d a b
  | 8 => .cwaitG d a b
  | 9 => .cwaitX d a b
  | 10 => .cwaitA d a b
  | 11 => .cwaitT d a b
  | 48 => .tokPass d a b
  | 49 => .tokTake d a b
  | 56 => .vgrow d a b
  | 57 => .vshrink d a b
  | 16 => .fenceAcq d a b 0
  | 17 => .fenceAcq d a b 1
  | 18 => .fenceAcq d a b 2
  | 19 => .fenceAcq d a b 3
  | 20 => .fenceAcq d a b 4
  | 21 => .fenceAcq d a b 5
  | 24 => .fenceRel d a b 0
  | 25 => .fenceRel d a b 1
  | 26 => .fenceRel d a b 2
  | 27 => .fenceRel d a b 3
  | 28 => .fenceRel d a b 4
  | 29 => .fenceRel d a b 5
  | 32 => .fenceFull d a b 0
  | 33 => .fenceFull d a b 1
  | 34 => .fenceFull d a b 2
  | 35 => .fenceFull d a b 3
  | 36 => .fenceFull d a b 4
  | 37 => .fenceFull d a b 5
  | _ => .unassignedScalarWord w

/-- Major 3, the system group (R58); swr of 48 to 51 with d = 0 is a cache command (R117). -/
def decodeSystem (w : W32) (d a b : BitVec 6) (minor : BitVec 8) : Instr :=
  match minor.toNat with
  | 0 => .ret d a b
  | 1 => .jtab d a b
  | 8 => .srd d a b
  | 9 =>
    if d = 0 then
      match b.toNat with
      | 48 => .cclean a
      | 49 => .cflush a
      | 50 => .cdrop a
      | 51 => .czero a
      | _ => .swr d a b
    else .swr d a b
  | 16 => .trap d a b
  | 17 => .sysc d a b
  | 18 => .halt d a b
  | _ => .unassignedScalarWord w

/-- Major 34, the window group (R58). -/
def decodeWindow (w : W32) (d a b : BitVec 6) (minor : BitVec 8) : Instr :=
  match minor.toNat with
  | 0 => .winBind d a b
  | 1 => .winState d a b
  | 2 => .winFree d a b
  | 8 => .mcjoin d a b
  | 9 => .mcleave d a b
  | _ => .unassignedScalarWord w

/-- Major 35, the matrix group (R58). -/
def decodeMatrix (w : W32) (d a b : BitVec 6) (minor : BitVec 8) : Instr :=
  match minor.toNat with
  | 0 => .mma d a b
  | 1 => .mmaN128 d a b
  | 8 => .mcommit d a b
  | 9 => .mwait d a b
  | 16 => .ppoint d a b
  | _ => .unassignedScalarWord w

/-- Major 36, the nest group (R58). -/
def decodeNest (w : W32) (d a b : BitVec 6) (minor : BitVec 8) : Instr :=
  match minor.toNat with
  | 0 => .nestLaunch d a b
  | 1 => .nestGrow d a b
  | 2 => .nestIdx d a b
  | 3 => .pdone d a b
  | _ => .unassignedScalarWord w

/-- Major 37, the pan group (R58). -/
def decodePan (w : W32) (d a b : BitVec 6) (minor : BitVec 8) : Instr :=
  match minor.toNat with
  | 0 => .satom d a b
  | 1 => .rtinst d a b
  | 2 => .kvinv d a b
  | 3 => .collStart d a b
  | _ => .unassignedScalarWord w

/-- One scalar word (R54); `next` is the word after it, which belongs to it when it is a prefix (R30). -/
def decodeScalar (w next : W32) : Instr :=
  match (fMajor w).toNat with
  | 0 => decodeAlu w (fD w) (fA w) (fB w) (w.extractLsb' 2 6) (w.extractLsb' 0 2)
  | 1 =>
    if (w.extractLsb' 5 3).toNat < 6 then
      .cmp (fD w) (fA w) (fB w) (w.extractLsb' 5 3) (w.extractLsb' 2 3) (w.extractLsb' 0 2)
    else .unassignedScalarWord w
  | 2 => decodeSync w (fD w) (fA w) (fB w) (fMinor w)
  | 3 => decodeSystem w (fD w) (fA w) (fB w) (fMinor w)
  | 32 => .b (w.extractLsb' 22 4) (w.extractLsb' 0 22)
  | 33 => .call (w.extractLsb' 22 4) (w.extractLsb' 0 22)
  | 34 => decodeWindow w (fD w) (fA w) (fB w) (fMinor w)
  | 35 => decodeMatrix w (fD w) (fA w) (fB w) (fMinor w)
  | 36 => decodeNest w (fD w) (fA w) (fB w) (fMinor w)
  | 37 => decodePan w (fD w) (fA w) (fB w) (fMinor w)
  | 63 => .pfx (w.extractLsb' 0 26) next
  | 4 => .addiS64 (fD w) (fA w) (fImm w)
  | 5 => .addiS32 (fD w) (fA w) (fImm w)
  | 6 => .andiB64 (fD w) (fA w) (fImm w)
  | 7 => .oriB64 (fD w) (fA w) (fImm w)
  | 8 => .xoriB64 (fD w) (fA w) (fImm w)
  | 9 => .shlB64Imm (fD w) (fA w) (fImm w)
  | 10 => .shrB64Imm (fD w) (fA w) (fImm w)
  | 11 => .sraB64Imm (fD w) (fA w) (fImm w)
  | 12 => .muliS64 (fD w) (fA w) (fImm w)
  | 13 => .cmpiEqS64 (fD w) (fA w) (fImm w)
  | 14 => .cmpiLtS64 (fD w) (fA w) (fImm w)
  | 15 => .cmpiLtN64 (fD w) (fA w) (fImm w)
  | 16 => .ldS8 (fD w) (fA w) (fImm w)
  | 17 => .ldN8 (fD w) (fA w) (fImm w)
  | 18 => .ldS16 (fD w) (fA w) (fImm w)
  | 19 => .ldN16 (fD w) (fA w) (fImm w)
  | 20 => .ldS32 (fD w) (fA w) (fImm w)
  | 21 => .ldN32 (fD w) (fA w) (fImm w)
  | 22 => .ldB64 (fD w) (fA w) (fImm w)
  | 24 => .stB8 (fD w) (fA w) (fImm w)
  | 25 => .stB16 (fD w) (fA w) (fImm w)
  | 26 => .stB32 (fD w) (fA w) (fImm w)
  | 27 => .stB64 (fD w) (fA w) (fImm w)
  | 28 => .lx (fD w) (fA w) (fImm w)
  | 29 => .land (fD w) (fA w) (fImm w)
  | 38 => .mdrain (fD w) (fA w) (fImm w)
  | _ => .unassignedScalarWord w

/-- The fields of a lane word (R33). -/
def laneFields (w : BitVec 96) : LaneWord where
  ty := w.extractLsb' 82 4
  dst := w.extractLsb' 71 11
  s0 := w.extractLsb' 60 11
  s1 := w.extractLsb' 49 11
  s2 := w.extractLsb' 38 11
  s3 := w.extractLsb' 27 11
  gA := w.extractLsb' 21 6
  gB := w.extractLsb' 15 6
  nowb := w.extractLsb' 14 1
  hint := w.extractLsb' 11 3
  stall := w.extractLsb' 7 4
  yld := w.extractLsb' 6 1
  lsel := w.extractLsb' 3 3
  mdf := w.extractLsb' 0 3

/-- One lane word (R61). -/
def decodeLane (w : BitVec 96) : Instr :=
  match (w.extractLsb' 86 10).toNat with
  | 0 => .laneNop (laneFields w)
  | 1 => .laneMov (laneFields w)
  | 16 => .laneAdd (laneFields w)
  | 17 => .laneSub (laneFields w)
  | 18 => .laneMul (laneFields w)
  | 19 => .laneMulhi (laneFields w)
  | 20 => .laneMad (laneFields w)
  | 21 => .laneMin (laneFields w)
  | 22 => .laneMax (laneFields w)
  | 23 => .laneAbs (laneFields w)
  | 24 => .laneNeg (laneFields w)
  | 25 => .laneSel (laneFields w)
  | 32 => .laneAnd (laneFields w)
  | 33 => .laneOr (laneFields w)
  | 34 => .laneXor (laneFields w)
  | 35 => .laneNot (laneFields w)
  | 36 => .laneShl (laneFields w)
  | 37 => .laneShr (laneFields w)
  | 38 => .laneSra (laneFields w)
  | 39 => .lanePopc (laneFields w)
  | 40 => .laneClz (laneFields w)
  | 48 => .laneCmp (laneFields w)
  | 64 => .fma (laneFields w)
  | 65 => .rndi (laneFields w)
  | 80 => .exp2 (laneFields w)
  | 81 => .log2 (laneFields w)
  | 82 => .rcp (laneFields w)
  | 83 => .rsqrt (laneFields w)
  | 84 => .sqrt (laneFields w)
  | 85 => .sin (laneFields w)
  | 86 => .cos (laneFields w)
  | 87 => .tanh (laneFields w)
  | 88 => .sigmoid (laneFields w)
  | 89 => .gelu (laneFields w)
  | 96 => .cvt (laneFields w)
  | 112 => .pand (laneFields w)
  | 113 => .por (laneFields w)
  | 114 => .pxor (laneFields w)
  | 115 => .pandn (laneFields w)
  | 116 => .pnot (laneFields w)
  | 128 => .shfl (laneFields w)
  | 129 => .lred (laneFields w)
  | 130 => .vote (laneFields w)
  | 144 => .laneLd (laneFields w)
  | 145 => .laneSt (laneFields w)
  | 146 => .ldTap (laneFields w)
  | 147 => .lds (laneFields w)
  | 148 => .sts (laneFields w)
  | 149 => .ldr (laneFields w)
  | 150 => .str (laneFields w)
  | 151 => .atom (laneFields w)
  | 152 => .pf (laneFields w)
  | 153 => .kvx (laneFields w)
  | _ => .unassignedLaneWord w

/-- A lane word from its opcode and fields (R33). -/
def encLane (op : BitVec 10) (f : LaneWord) : BitVec 96 :=
  op ++ f.ty ++ f.dst ++ f.s0 ++ f.s1 ++ f.s2 ++ f.s3 ++ f.gA ++ f.gB ++ f.nowb ++ f.hint ++ f.stall ++ f.yld ++ f.lsel ++ f.mdf

/-- The words of an instruction. -/
inductive Words where
  | scalar (w : W32)
  | pair (first second : W32)
  | lane (w : BitVec 96)
  /-- A row of the opcode table that no word encodes. -/
  | none
  deriving DecidableEq, Repr

/-- The encoder. -/
def encode : Instr → Words
  | .add d a b t => .scalar (encSR 0 d a b (0#6 ++ t))
  | .sub d a b t => .scalar (encSR 0 d a b (1#6 ++ t))
  | .mul d a b t => .scalar (encSR 0 d a b (2#6 ++ t))
  | .mulhi d a b t => .scalar (encSR 0 d a b (3#6 ++ t))
  | .and d a b t => .scalar (encSR 0 d a b (4#6 ++ t))
  | .or d a b t => .scalar (encSR 0 d a b (5#6 ++ t))
  | .xor d a b t => .scalar (encSR 0 d a b (6#6 ++ t))
  | .shl d a b t => .scalar (encSR 0 d a b (7#6 ++ t))
  | .shr d a b t => .scalar (encSR 0 d a b (8#6 ++ t))
  | .sra d a b t => .scalar (encSR 0 d a b (9#6 ++ t))
  | .min d a b t => .scalar (encSR 0 d a b (10#6 ++ t))
  | .max d a b t => .scalar (encSR 0 d a b (11#6 ++ t))
  | .popc d a b t => .scalar (encSR 0 d a b (12#6 ++ t))
  | .clz d a b t => .scalar (encSR 0 d a b (13#6 ++ t))
  | .cmp d a b c r t => .scalar (encSR 1 d a b (c ++ r ++ t))
  | .garrive d a b => .scalar (encSR 2 d a b 0)
  | .gwait d a b => .scalar (encSR 2 d a b 1)
  | .gtry d a b => .scalar (encSR 2 d a b 2)
  | .cwaitG d a b => .scalar (encSR 2 d a b 8)
  | .cwaitX d a b => .scalar (encSR 2 d a b 9)
  | .cwaitA d a b => .scalar (encSR 2 d a b 10)
  | .cwaitT d a b => .scalar (encSR 2 d a b 11)
  | .tokPass d a b => .scalar (encSR 2 d a b 48)
  | .tokTake d a b => .scalar (encSR 2 d a b 49)
  | .vgrow d a b => .scalar (encSR 2 d a b 56)
  | .vshrink d a b => .scalar (encSR 2 d a b 57)
  | .fenceAcq d a b sc => .scalar (encSR 2 d a b (2#5 ++ sc))
  | .fenceRel d a b sc => .scalar (encSR 2 d a b (3#5 ++ sc))
  | .fenceFull d a b sc => .scalar (encSR 2 d a b (4#5 ++ sc))
  | .ret d a b => .scalar (encSR 3 d a b 0)
  | .jtab d a b => .scalar (encSR 3 d a b 1)
  | .srd d a b => .scalar (encSR 3 d a b 8)
  | .swr d a b => .scalar (encSR 3 d a b 9)
  | .trap d a b => .scalar (encSR 3 d a b 16)
  | .sysc d a b => .scalar (encSR 3 d a b 17)
  | .halt d a b => .scalar (encSR 3 d a b 18)
  | .cclean a => .scalar (encSR 3 0 a 48 9)
  | .cflush a => .scalar (encSR 3 0 a 49 9)
  | .cdrop a => .scalar (encSR 3 0 a 50 9)
  | .czero a => .scalar (encSR 3 0 a 51 9)
  | .winBind d a b => .scalar (encSR 34 d a b 0)
  | .winState d a b => .scalar (encSR 34 d a b 1)
  | .winFree d a b => .scalar (encSR 34 d a b 2)
  | .mcjoin d a b => .scalar (encSR 34 d a b 8)
  | .mcleave d a b => .scalar (encSR 34 d a b 9)
  | .mma d a b => .scalar (encSR 35 d a b 0)
  | .mmaN128 d a b => .scalar (encSR 35 d a b 1)
  | .mcommit d a b => .scalar (encSR 35 d a b 8)
  | .mwait d a b => .scalar (encSR 35 d a b 9)
  | .ppoint d a b => .scalar (encSR 35 d a b 16)
  | .nestLaunch d a b => .scalar (encSR 36 d a b 0)
  | .nestGrow d a b => .scalar (encSR 36 d a b 1)
  | .nestIdx d a b => .scalar (encSR 36 d a b 2)
  | .pdone d a b => .scalar (encSR 36 d a b 3)
  | .satom d a b => .scalar (encSR 37 d a b 0)
  | .rtinst d a b => .scalar (encSR 37 d a b 1)
  | .kvinv d a b => .scalar (encSR 37 d a b 2)
  | .collStart d a b => .scalar (encSR 37 d a b 3)
  | .addiS64 d a imm => .scalar (encSI 4 d a imm)
  | .addiS32 d a imm => .scalar (encSI 5 d a imm)
  | .andiB64 d a imm => .scalar (encSI 6 d a imm)
  | .oriB64 d a imm => .scalar (encSI 7 d a imm)
  | .xoriB64 d a imm => .scalar (encSI 8 d a imm)
  | .shlB64Imm d a imm => .scalar (encSI 9 d a imm)
  | .shrB64Imm d a imm => .scalar (encSI 10 d a imm)
  | .sraB64Imm d a imm => .scalar (encSI 11 d a imm)
  | .muliS64 d a imm => .scalar (encSI 12 d a imm)
  | .cmpiEqS64 d a imm => .scalar (encSI 13 d a imm)
  | .cmpiLtS64 d a imm => .scalar (encSI 14 d a imm)
  | .cmpiLtN64 d a imm => .scalar (encSI 15 d a imm)
  | .ldS8 d a imm => .scalar (encSI 16 d a imm)
  | .ldN8 d a imm => .scalar (encSI 17 d a imm)
  | .ldS16 d a imm => .scalar (encSI 18 d a imm)
  | .ldN16 d a imm => .scalar (encSI 19 d a imm)
  | .ldS32 d a imm => .scalar (encSI 20 d a imm)
  | .ldN32 d a imm => .scalar (encSI 21 d a imm)
  | .ldB64 d a imm => .scalar (encSI 22 d a imm)
  | .stB8 d a imm => .scalar (encSI 24 d a imm)
  | .stB16 d a imm => .scalar (encSI 25 d a imm)
  | .stB32 d a imm => .scalar (encSI 26 d a imm)
  | .stB64 d a imm => .scalar (encSI 27 d a imm)
  | .lx d a imm => .scalar (encSI 28 d a imm)
  | .land d a imm => .scalar (encSI 29 d a imm)
  | .mdrain d a imm => .scalar (encSI 38 d a imm)
  | .b p o => .scalar (encSB 32 p o)
  | .call p o => .scalar (encSB 33 p o)
  | .pfx h next => .pair (63#6 ++ h) next
  | .unassignedScalarWord w => .scalar w
  | .laneNop f => .lane (encLane 0 f)
  | .laneMov f => .lane (encLane 1 f)
  | .laneAdd f => .lane (encLane 16 f)
  | .laneSub f => .lane (encLane 17 f)
  | .laneMul f => .lane (encLane 18 f)
  | .laneMulhi f => .lane (encLane 19 f)
  | .laneMad f => .lane (encLane 20 f)
  | .laneMin f => .lane (encLane 21 f)
  | .laneMax f => .lane (encLane 22 f)
  | .laneAbs f => .lane (encLane 23 f)
  | .laneNeg f => .lane (encLane 24 f)
  | .laneSel f => .lane (encLane 25 f)
  | .laneAnd f => .lane (encLane 32 f)
  | .laneOr f => .lane (encLane 33 f)
  | .laneXor f => .lane (encLane 34 f)
  | .laneNot f => .lane (encLane 35 f)
  | .laneShl f => .lane (encLane 36 f)
  | .laneShr f => .lane (encLane 37 f)
  | .laneSra f => .lane (encLane 38 f)
  | .lanePopc f => .lane (encLane 39 f)
  | .laneClz f => .lane (encLane 40 f)
  | .laneCmp f => .lane (encLane 48 f)
  | .fma f => .lane (encLane 64 f)
  | .rndi f => .lane (encLane 65 f)
  | .exp2 f => .lane (encLane 80 f)
  | .log2 f => .lane (encLane 81 f)
  | .rcp f => .lane (encLane 82 f)
  | .rsqrt f => .lane (encLane 83 f)
  | .sqrt f => .lane (encLane 84 f)
  | .sin f => .lane (encLane 85 f)
  | .cos f => .lane (encLane 86 f)
  | .tanh f => .lane (encLane 87 f)
  | .sigmoid f => .lane (encLane 88 f)
  | .gelu f => .lane (encLane 89 f)
  | .cvt f => .lane (encLane 96 f)
  | .pand f => .lane (encLane 112 f)
  | .por f => .lane (encLane 113 f)
  | .pxor f => .lane (encLane 114 f)
  | .pandn f => .lane (encLane 115 f)
  | .pnot f => .lane (encLane 116 f)
  | .shfl f => .lane (encLane 128 f)
  | .lred f => .lane (encLane 129 f)
  | .vote f => .lane (encLane 130 f)
  | .laneLd f => .lane (encLane 144 f)
  | .laneSt f => .lane (encLane 145 f)
  | .ldTap f => .lane (encLane 146 f)
  | .lds f => .lane (encLane 147 f)
  | .sts f => .lane (encLane 148 f)
  | .ldr f => .lane (encLane 149 f)
  | .str f => .lane (encLane 150 f)
  | .atom f => .lane (encLane 151 f)
  | .pf f => .lane (encLane 152 f)
  | .kvx f => .lane (encLane 153 f)
  | .unassignedLaneWord w => .lane w
  | _ => .none

/-- Byte i of a number, little-endian (R12). -/
def byteOf (n i : Nat) : Byte := BitVec.ofNat 8 (n >>> (8 * i))

/-- The first n bytes of a number, lowest address first (R12). -/
def bytesOf (n : Nat) : Nat → List Byte
  | 0 => []
  | k + 1 => BitVec.ofNat 8 n :: bytesOf (n / 256) k

/-- The number that bytes hold, lowest address first (R12). -/
def ofBytes : List Byte → Nat
  | [] => 0
  | b :: r => b.toNat + 256 * ofBytes r

/-- The scalar instruction at the head of a byte string (R27, R30). -/
def decodeScalarBytes (bs : List Byte) : Except DecodeError Instr :=
  if bs.length < 4 then .error .truncated
  else
    let w := BitVec.ofNat 32 (ofBytes (bs.take 4))
    if fMajor w = 63 ∧ bs.length < 8 then .error .truncated
    else .ok (decodeScalar w (BitVec.ofNat 32 (ofBytes ((bs.drop 4).take 4))))

/-- The lane word at the head of a byte string (R33). -/
def decodeLaneBytes (bs : List Byte) : Except DecodeError Instr :=
  if bs.length < 12 then .error .truncated
  else .ok (decodeLane (BitVec.ofNat 96 (ofBytes (bs.take 12))))

/-- The instruction the decoder reads from a word whose bits are numbered as the opcode table numbers them: 96-bit words
are lane words, shorter ones scalar words followed by zeros. -/
def decodeTableWord (nbits w : Nat) : Option Instr :=
  if nbits = 96 then (decodeLaneBytes (bytesOf w 12)).toOption
  else (decodeScalarBytes (bytesOf w 8)).toOption

/-! ### Words written out from the tables of R57 to R61, one for each row -/

/-- Each 32-bit word decodes to the instruction beside it. -/
def decodes (l : List (Nat × Instr)) : Bool := l.all (fun e => decide (decodeTableWord 32 e.1 = some e.2))

theorem decodes_scalar_arithmetic : decodes [
    (0b000000_000101_001001_010011_000000_10, .add 5 9 19 2),
    (0b000000_000101_001001_010011_000001_10, .sub 5 9 19 2),
    (0b000000_000101_001001_010011_000010_10, .mul 5 9 19 2),
    (0b000000_000101_001001_010011_000011_10, .mulhi 5 9 19 2),
    (0b000000_000101_001001_010011_000100_10, .and 5 9 19 2),
    (0b000000_000101_001001_010011_000101_10, .or 5 9 19 2),
    (0b000000_000101_001001_010011_000110_10, .xor 5 9 19 2),
    (0b000000_000101_001001_010011_000111_10, .shl 5 9 19 2),
    (0b000000_000101_001001_010011_001000_10, .shr 5 9 19 2),
    (0b000000_000101_001001_010011_001001_10, .sra 5 9 19 2),
    (0b000000_000101_001001_010011_001010_10, .min 5 9 19 2),
    (0b000000_000101_001001_010011_001011_10, .max 5 9 19 2),
    (0b000000_000101_001001_000000_001100_10, .popc 5 9 0 2),
    (0b000000_000101_001001_000000_001101_10, .clz 5 9 0 2),
    (0b000001_000101_001001_010011_011_000_01, .cmp 5 9 19 3 0 1)] = true := by decide +kernel
theorem decodes_synchronisation : decodes [
    (0b000010_000000_001001_000000_00000000, .garrive 0 9 0),
    (0b000010_000000_001001_000000_00000001, .gwait 0 9 0),
    (0b000010_000101_001001_010011_00000010, .gtry 5 9 19),
    (0b000010_000000_001001_000000_00001000, .cwaitG 0 9 0),
    (0b000010_000000_001001_000000_00001001, .cwaitX 0 9 0),
    (0b000010_000000_001001_000000_00001010, .cwaitA 0 9 0),
    (0b000010_000000_001001_000000_00001011, .cwaitT 0 9 0),
    (0b000010_000000_000000_000000_00010_100, .fenceAcq 0 0 0 4),
    (0b000010_000000_000000_000000_00011_100, .fenceRel 0 0 0 4),
    (0b000010_000000_000000_000000_00100_100, .fenceFull 0 0 0 4),
    (0b000010_000000_001001_000000_00110000, .tokPass 0 9 0),
    (0b000010_000000_000000_000000_00110001, .tokTake 0 0 0),
    (0b000010_000101_001001_000000_00111000, .vgrow 5 9 0),
    (0b000010_000000_001001_000000_00111001, .vshrink 0 9 0)] = true := by decide +kernel
theorem decodes_system : decodes [
    (0b000011_000000_001001_000000_00000000, .ret 0 9 0),
    (0b000011_000000_001001_010011_00000001, .jtab 0 9 19),
    (0b000011_000101_000000_010011_00001000, .srd 5 0 19),
    (0b000011_000000_001001_010011_00001001, .swr 0 9 19),
    (0b000011_000000_001001_110000_00001001, .cclean 9),
    (0b000011_000000_001001_110001_00001001, .cflush 9),
    (0b000011_000000_001001_110010_00001001, .cdrop 9),
    (0b000011_000000_001001_110011_00001001, .czero 9),
    (0b000011_000000_000000_010011_00010000, .trap 0 0 19),
    (0b000011_000000_000000_010011_00010001, .sysc 0 0 19),
    (0b000011_000000_000000_000000_00010010, .halt 0 0 0)] = true := by decide +kernel
theorem decodes_immediates : decodes [
    (0b000100_000101_001001_10101001011011, .addiS64 5 9 0x2A5B),
    (0b000101_000101_001001_10101001011011, .addiS32 5 9 0x2A5B),
    (0b000110_000101_001001_10101001011011, .andiB64 5 9 0x2A5B),
    (0b000111_000101_001001_10101001011011, .oriB64 5 9 0x2A5B),
    (0b001000_000101_001001_10101001011011, .xoriB64 5 9 0x2A5B),
    (0b001001_000101_001001_00000000100101, .shlB64Imm 5 9 0x25),
    (0b001010_000101_001001_00000000100101, .shrB64Imm 5 9 0x25),
    (0b001011_000101_001001_00000000100101, .sraB64Imm 5 9 0x25),
    (0b001100_000101_001001_10101001011011, .muliS64 5 9 0x2A5B),
    (0b001101_000101_001001_10101001011011, .cmpiEqS64 5 9 0x2A5B),
    (0b001110_000101_001001_10101001011011, .cmpiLtS64 5 9 0x2A5B),
    (0b001111_000101_001001_10101001011011, .cmpiLtN64 5 9 0x2A5B)] = true := by decide +kernel
theorem decodes_scalar_memory : decodes [
    (0b010000_000101_001001_10101001011011, .ldS8 5 9 0x2A5B),
    (0b010001_000101_001001_10101001011011, .ldN8 5 9 0x2A5B),
    (0b010010_000101_001001_10101001011011, .ldS16 5 9 0x2A5B),
    (0b010011_000101_001001_10101001011011, .ldN16 5 9 0x2A5B),
    (0b010100_000101_001001_10101001011011, .ldS32 5 9 0x2A5B),
    (0b010101_000101_001001_10101001011011, .ldN32 5 9 0x2A5B),
    (0b010110_000101_001001_10101001011011, .ldB64 5 9 0x2A5B),
    (0b011000_000101_001001_10101001011011, .stB8 5 9 0x2A5B),
    (0b011001_000101_001001_10101001011011, .stB16 5 9 0x2A5B),
    (0b011010_000101_001001_10101001011011, .stB32 5 9 0x2A5B),
    (0b011011_000101_001001_10101001011011, .stB64 5 9 0x2A5B),
    (0b011100_000101_001001_10101001011011, .lx 5 9 0x2A5B),
    (0b011101_000000_000001_10101001011011, .land 0 1 0x2A5B)] = true := by decide +kernel
theorem decodes_branches_and_units : decodes [
    (0b100000_0110_0000101010010110110011, .b 6 0x2A5B3),
    (0b100001_0110_0000101010010110110011, .call 6 0x2A5B3),
    (0b111111_01010101011010101000110011, .pfx 0x155AA33 0),
    (0b100010_000000_001001_010011_00000000, .winBind 0 9 19),
    (0b100010_000101_001001_000000_00000001, .winState 5 9 0),
    (0b100010_000000_001001_000000_00000010, .winFree 0 9 0),
    (0b100010_000000_001001_010011_00001000, .mcjoin 0 9 19),
    (0b100010_000000_001001_000000_00001001, .mcleave 0 9 0),
    (0b100011_000101_001001_010011_00000000, .mma 5 9 19),
    (0b100011_000101_001001_010011_00000001, .mmaN128 5 9 19),
    (0b100011_000101_000000_000000_00001000, .mcommit 5 0 0),
    (0b100011_000000_001001_000000_00001001, .mwait 0 9 0),
    (0b100011_000000_001001_000000_00010000, .ppoint 0 9 0),
    (0b100110_000101_001001_00001001011011, .mdrain 5 9 0x25B),
    (0b100100_000101_001001_000000_00000000, .nestLaunch 5 9 0),
    (0b100100_000101_001001_010011_00000001, .nestGrow 5 9 19),
    (0b100100_000101_000000_010011_00000010, .nestIdx 5 0 19),
    (0b100100_000000_000000_000000_00000011, .pdone 0 0 0),
    (0b100101_000101_001001_010011_00000000, .satom 5 9 19),
    (0b100101_000101_001001_010011_00000001, .rtinst 5 9 19),
    (0b100101_000000_001001_010011_00000010, .kvinv 0 9 19),
    (0b100101_000000_001001_010011_00000011, .collStart 0 9 19)] = true := by decide +kernel

/-- The fields of R33 behind the opcode, and what they hold. -/
def laneBits : Nat := 0b0010_00000000011_00000000100_00000000101_00000000110_00000000111_100001_011111_1_010_1001_1_101_011
def laneShown : LaneWord := ⟨2, 3, 4, 5, 6, 7, 33, 31, 1, 2, 9, 1, 5, 3⟩
/-- Each opcode of R61 in front of those fields decodes to the lane word beside it. -/
def decodesLane (l : List (Nat × Instr)) : Bool := l.all (fun e => decide (decodeTableWord 96 (e.1 * 2 ^ 86 + laneBits) = some e.2))
theorem decodes_lane_arithmetic : decodesLane [
    (0x000, .laneNop laneShown), (0x001, .laneMov laneShown), (0x010, .laneAdd laneShown), (0x011, .laneSub laneShown),
    (0x012, .laneMul laneShown), (0x013, .laneMulhi laneShown), (0x014, .laneMad laneShown), (0x015, .laneMin laneShown),
    (0x016, .laneMax laneShown), (0x017, .laneAbs laneShown), (0x018, .laneNeg laneShown), (0x019, .laneSel laneShown),
    (0x020, .laneAnd laneShown), (0x021, .laneOr laneShown), (0x022, .laneXor laneShown), (0x023, .laneNot laneShown),
    (0x024, .laneShl laneShown), (0x025, .laneShr laneShown), (0x026, .laneSra laneShown), (0x027, .lanePopc laneShown),
    (0x028, .laneClz laneShown), (0x030, .laneCmp laneShown), (0x040, .fma laneShown), (0x041, .rndi laneShown),
    (0x050, .exp2 laneShown), (0x051, .log2 laneShown), (0x052, .rcp laneShown), (0x053, .rsqrt laneShown),
    (0x054, .sqrt laneShown), (0x055, .sin laneShown), (0x056, .cos laneShown), (0x057, .tanh laneShown),
    (0x058, .sigmoid laneShown), (0x059, .gelu laneShown), (0x060, .cvt laneShown)] = true := by decide +kernel
theorem decodes_lane_others : decodesLane [
    (0x070, .pand laneShown), (0x071, .por laneShown), (0x072, .pxor laneShown), (0x073, .pandn laneShown),
    (0x074, .pnot laneShown), (0x080, .shfl laneShown), (0x081, .lred laneShown), (0x082, .vote laneShown),
    (0x090, .laneLd laneShown), (0x091, .laneSt laneShown), (0x092, .ldTap laneShown), (0x093, .lds laneShown),
    (0x094, .sts laneShown), (0x095, .ldr laneShown), (0x096, .str laneShown), (0x097, .atom laneShown),
    (0x098, .pf laneShown), (0x099, .kvx laneShown)] = true := by decide +kernel
/-- Words of the gaps of R56 and R61 are unassigned. -/
theorem decodes_unassigned : decodes [(0b000000_000000_000000_000000_00111000, .unassignedScalarWord 0x38), (0b000001_000000_000000_000000_110_000_00, .unassignedScalarWord 0x040000C0)] &&
    decodesLane [(0x002, .unassignedLaneWord (BitVec.ofNat 96 (0x002 * 2 ^ 86 + laneBits))), (0x3FF, .unassignedLaneWord (BitVec.ofNat 96 (0x3FF * 2 ^ 86 + laneBits)))] := by decide +kernel

end Sys2Proof
end

