-- ==== Sys2Proof/Machine/Matrix.lean ====
section
/-!
DEFINITION. The matrix engine and its tile fetch unit (R273 to R301): mma, batches, mdrain and the epilogue, ppoint, and the steps PIN,
UNPIN, MATRIX_OP_START, MATRIX_OP_COMPLETE and DRAIN_PERFORM.
-/
namespace Sys2Proof.Machine

/-! ### Format blocks (R276 to R279) -/

/-- A little-endian field of a 32-byte block. -/
def blkField (x : BitVec 256) (byte n : Nat) : Nat := (x.toNat >>> (8 * byte)) % 256 ^ n

/-- One operand of a product: addresses, strides, format, scaling, block length code and space. -/
structure Opnd where
  addr : Nat
  str : Nat
  scl : Nat
  sstr : Nat
  fmt : Nat
  sc : Bool
  lf : Nat
  scratch : Bool
  deriving DecidableEq, Repr

def fbCtl (x : BitVec 256) : Nat := blkField x 28 4

def opndA (a : W64) (x : BitVec 256) : Opnd :=
  let c := fbCtl x
  ⟨a.toNat, blkField x 16 4, blkField x 0 8, blkField x 24 2, c / 2 ^ 20 % 16, c.testBit 11, c / 2 ^ 14 % 4, c.testBit 9⟩

def opndB (b : W64) (x : BitVec 256) : Opnd :=
  let c := fbCtl x
  ⟨b.toNat, blkField x 20 4, blkField x 8 8, blkField x 26 2, c / 2 ^ 16 % 16, c.testBit 10, c / 2 ^ 12 % 4, c.testBit 8⟩

/-- K of R277. -/
def fbK (x : BitVec 256) : Nat := (fbCtl x / 2 ^ 24 + 1) * 16
def fbAcc (x : BitVec 256) : Bool := (fbCtl x).testBit 7

/-- Element width of an operand format (R278); 0 for a code that is none. -/
def fmtBits (f : Nat) : Nat :=
  match f with
  | 9 | 10 => 16
  | 0 | 11 | 12 => 8
  | 13 | 14 => 4
  | _ => 0

/-- The scaling rules of R278 for one operand. -/
def Opnd.ok (o : Opnd) : Bool :=
  fmtBits o.fmt != 0 && !(fmtBits o.fmt == 16 && o.sc) && (o.fmt != 14 || o.sc) && (o.sc || o.lf == 0)

/-- CTL breaks none of R277 and R278. -/
def fbOk (x : BitVec 256) : Bool :=
  let a := opndA 0 x
  let b := opndB 0 x
  fbCtl x % 128 == 0 && a.ok && b.ok && (fmtBits a.fmt == 16) == (fmtBits b.fmt == 16)

/-- The integer path (R278). -/
def intPath (a b : Opnd) : Bool := (a.fmt == 0 || a.fmt == 13) && (b.fmt == 0 || b.fmt == 13) && !a.sc && !b.sc

def Opnd.blockLen (o : Opnd) : Nat := 16 * 2 ^ o.lf
/-- Size of a scale entry (R279). -/
def Opnd.entry (o : Opnd) : Nat := if o.fmt = 14 then 2 else 1
/-- Number of scale blocks along K. -/
def Opnd.blocks (o : Opnd) (k : Nat) : Nat := (k + o.blockLen - 1) / o.blockLen

/-- Byte ranges of the element rows (or columns) `idx`, and of their scales (R279). -/
def Opnd.elemRanges (o : Opnd) (k : Nat) (idx : List Nat) : List (Nat × Nat) :=
  idx.map (fun i => ((o.addr + i * o.str) % 2 ^ 64, k * fmtBits o.fmt / 8))
def Opnd.scaleRanges (o : Opnd) (k : Nat) (idx : List Nat) : List (Nat × Nat) :=
  if o.sc then idx.map (fun i => ((o.scl + i * o.sstr) % 2 ^ 64, o.blocks k * o.entry)) else []
def Opnd.ranges (o : Opnd) (k : Nat) (idx : List Nat) : List (Nat × Nat) := o.elemRanges k idx ++ o.scaleRanges k idx

/-- The byte ranges of the selected rows and of all columns, as (scratch, start, length) (R280 step 7). -/
def mmaAll (n : Nat) (a b : W64) (rows : W64) (x : BitVec 256) : List (Bool × Nat × Nat) :=
  let oa := opndA a x
  let ob := opndB b x
  (oa.ranges (fbK x) (lanesOn rows)).map (fun r => (oa.scratch, r)) ++
    (ob.ranges (fbK x) (List.range (64 * n))).map (fun r => (ob.scratch, r))

/-- The byte ranges that an operation reads; an empty row mask reads nothing (R281). -/
def mmaRanges (n : Nat) (a b : W64) (rows : W64) (x : BitVec 256) : List (Bool × Nat × Nat) :=
  if rows = 0 then [] else mmaAll n a b rows x

/-- The distinct global lines of the ranges. -/
def mmaLines (l : List (Bool × Nat × Nat)) : List Nat :=
  distinct (l.flatMap (fun r => if r.1 then [] else linesOf r.2.1 r.2.2))

/-- The first value that breaks the alignment rules (R280 step 5). -/
def mmaMisaligned (a b : Opnd) : Option Nat :=
  let q : Opnd → List (Nat × Nat) := fun o => if o.fmt = 14 then [(o.scl, 2), (o.sstr, 2)] else []
  let l : List (Nat × Nat) := [(a.addr, 8), (b.addr, 8), (a.str, 8), (b.str, 8)] ++ q a ++ q b
  (l.find? (fun e => e.1 % e.2 != 0)).map (·.1)

/-! ### Batches (R290 to R292) -/

/-- An operation has finished: it is no longer in its cluster's queue. -/
def mopDone (d : Dev) (c i : Nat) : Bool := !(d.cluster c).mq.contains i

/-- Completes the warp's oldest batch, if it can: flags into WSTAT, a data error for the next scalar word (R287, R292). -/
def closeBatch (d : Dev) (k : Nat) : Dev :=
  match d.warps.get? k with
  | none => d
  | some w =>
    match w.batches with
    | [] => d
    | b :: rest =>
      if b.ops.all (mopDone d w.cluster) then
        let ops := b.ops.filterMap (fun i => d.mops.get? i)
        let w := { w with
          batches := rest
          wstat := w.wstat ||| ops.foldl (fun f o => f ||| o.flags) b.flags
          batchErr := w.batchErr ++ (((ops.filterMap (·.err)).head?.or b.err).toList) }
        { d.setWarp k w with mops := b.ops.foldl (fun m i => m.erase i) d.mops }
      else d

/-- Completes what can complete; a warp has at most 16 incomplete batches. -/
def closeBatches (d : Dev) (k : Nat) : Dev := times (fun d => closeBatch d k) 17 d

/-- Closes the warp's open operations into a batch. -/
def Warp.newBatch (w : Warp) : Warp :=
  let n := (w.lastBatch + 1) % 2 ^ 32
  { w with lastBatch := n, openOps := [], batches := w.batches ++ [⟨n, w.openOps, 0, none⟩] }

/-- Closes open operations as pdone and a stopping ppoint do: none make no batch (R292); none while sixteen are incomplete. -/
def closeOpen (w : Warp) : Option Warp :=
  if w.openOps.isEmpty then some w else if 16 ≤ w.batches.length then none else some w.newBatch

/-- MCOMMIT (R290). -/
def mcommitWord (f a b : BitVec 6) : Dev → Nat → Warp → Dev :=
  checked [ckZero (a == 0#6 && b == 0#6)] (interlock [f.toNat] (fun d k w =>
    if 16 ≤ w.batches.length then stall d k w
    else
      let w := w.newBatch
      closeBatches (done d k (w.setS f.toNat (BitVec.ofNat 64 w.lastBatch)) 4) k))

def execMcommit (d a b : BitVec 6) (s : State) : Host.Outcome State Fault Refusal := scalarWord s (mcommitWord d a b)

/-- MWAIT (R291). -/
def mwaitWord (f a b : BitVec 6) : Dev → Nat → Warp → Dev :=
  checked [ckZero (f == 0#6 && b == 0#6)] (interlock [a.toNat] (fun d k w =>
    let n := bits (w.s a.toNat) 31 0
    let ahead := (n + 2 ^ 32 - w.lastBatch) % 2 ^ 32
    if 1 ≤ ahead ∧ ahead ≤ 2 ^ 31 - 1 then illegal d k w (.illOpnd, 5)
    else if w.batches.any (fun x => x.num == n) then stall d k w
    else done d k w 4))

def execMwait (d a b : BitVec 6) (s : State) : Host.Outcome State Fault Refusal := scalarWord s (mwaitWord d a b)

/-! ### mma (R275, R280, R281) -/

/-- A crew-relative tile is declared (R273). -/
def declared (d : Dev) (w : Warp) (t : Nat) : Bool := ((d.crewOf w).map (fun c => (c.tiles.get? t).isSome)).getD false

/-- Puts an operation at the end of the cluster's matrix queue (R281). -/
def pushMop (d : Dev) (c : Nat) (o : MOp) : Dev :=
  let id := d.nextId
  { d.setCluster c { d.cluster c with mq := (d.cluster c).mq ++ [id] } with nextId := id + 1, mops := d.mops.set id o }

/-- The checks of R280 after the format block is read, then the queueing of R281. -/
def mmaQueue (n dt a b : Nat) (x : BitVec 256) (d : Dev) (k : Nat) (w : Warp) : Dev :=
  let va := w.s a
  let vb := w.s (a + 1)
  let rows := w.s b
  let ranges := mmaRanges n va vb rows x
  let lines := mmaLines ranges
  let ssize := ((d.crewOf w).map (·.ssize)).getD 0
  if !fbOk x then illegal d k w (.illOpnd, 5)
  else
    match mmaMisaligned (opndA va x) (opndB vb x) with
    | some v => scalarTrap d k w 4 .align (BitVec.ofNat 64 v) []
    | none =>
      if ranges.any (fun r => r.1 && ssize < r.2.1 + r.2.2) then protFault d k w .outside
      else if 4096 < (mmaLines (mmaAll n va vb rows x)).length then illegal d k w (.illOpnd, 5)
      else if 64 ≤ (d.cluster w.cluster).mq.length then stall d k w
      else
        let tiles := if n = 1 then [dt] else [dt, dt + 1]
        let id := d.nextId
        let d := pushMop d w.cluster ⟨k, w.crewKey, w.spc.toNat, .mma n va vb rows x, tiles,
          encSR 35 (BitVec.ofNat 6 dt) (BitVec.ofNat 6 a) (BitVec.ofNat 6 b) (BitVec.ofNat 8 (n - 1)), false, lines, [], [], [], [], 0, none⟩
        done d k { w with openOps := w.openOps ++ [id] } 4

/-- mma with n tiles of 64 columns. -/
def mmaWord (n : Nat) (f a b : BitVec 6) : Dev → Nat → Warp → Dev :=
  checked [ckD (decide (f.toNat < 16) && (n == 1 || f.toNat % 2 == 0)), ckA (decide (a.toNat < 62)), ckB (b.toNat % 2 == 0)]
    (interlock [a.toNat, a.toNat + 1, a.toNat + 2, b.toNat] (fun d k w =>
      if !(List.range n).all (fun i => declared d w (f.toNat + i)) then illegal d k w (.illOpnd, 4)
      else
        let va := w.s (a.toNat + 2)
        if va.toNat % 32 ≠ 0 then scalarTrap d k w 4 .align va []
        else withVa d k w va (fun v => withRead d k w 4 v 32 (fun x =>
          mmaQueue n f.toNat a.toNat b.toNat (BitVec.ofNat 256 x) d k w))))

/-- MMA, MMA_N128 (R275). -/
def execMma (d a b : BitVec 6) (s : State) : Host.Outcome State Fault Refusal := scalarWord s (mmaWord 1 d a b)
def execMmaN128 (d a b : BitVec 6) (s : State) : Host.Outcome State Fault Refusal := scalarWord s (mmaWord 2 d a b)

/-! ### Pins (R282 to R286) -/

/-- The nest of an operation is ending (R389). -/
def mopEnding (d : Dev) (o : MOp) : Bool :=
  match d.crews.get? o.crew with
  | some c => ((d.nests.get? c.id.nest).map (·.ending)).getD true
  | none => true

/-- A fatal fault that the tile fetch unit finds (R286). -/
def mopTrap (d : Dev) (o : MOp) (cls : Cls) (aux : W64) : Dev :=
  match d.warps.get? o.warp with
  | some w => takeTrap d o.warp w .matrix cls o.waddr 0 0 aux []
  | none => d

/-- How the tile fetch unit translates a virtual line of an operation (R76, R282, R286). -/
def pinXlate (d : Dev) (c p id line : Nat) : Xl :=
  match aform (BitVec.ofNat 64 (line * 64)) with
  | .va va =>
    match agentX d (c / 64) (d.cluster c).tlb (.mop id) p va .read with
    | .hit pa l => if isHbm pa then .hit pa l else .fault .outside
    | r => r
  | .tagged _ _ => .fault .tagMisuse
  | .bad => .fault .nonCanon

/-- An earlier request of the cluster to the line is still to be performed (R285, R307, R321, R324). -/
def requestBefore (d : Dev) (c id line : Nat) : Bool :=
  d.ops.any (fun e => e.2.cluster == c && e.1 < id && e.2.subs.any (fun u => u.2.line == line && u.2.st == .sent))

/-- A write of the operation's own warp to the line, issued before it, is still to be performed: the pin follows it (R285). -/
def writeBefore (d : Dev) (warp id line : Nat) : Bool :=
  d.ops.any (fun e => e.2.warp == warp && e.1 < id && e.2.subs.any (fun u => u.2.line == line && u.2.st == .sent && u.2.act.isWrite))

/-- The operation has its place in the hold buffer: its lines and those of the operations before it fit (R282). -/
def slotsGranted (d : Dev) (c id : Nat) : Bool :=
  let x := d.cluster c
  let upTo := x.mq.takeWhile (· != id) ++ [id]
  x.holds.length + upTo.foldl (fun n i => n + ((d.mops.get? i).map (·.vlines.length)).getD 0) 0 ≤ 4096

/-- The same for the lines of the operations before it: none of them lacks a slot. -/
def slotsBefore (d : Dev) (c id : Nat) : Bool :=
  let x := d.cluster c
  x.holds.length + (x.mq.takeWhile (· != id)).foldl (fun n i => n + ((d.mops.get? i).map (·.vlines.length)).getD 0) 0 ≤ 4096

/-- Asks the pan for a pin: performed like a load, or entered in the conflict queue by what would keep a load (R103, R282). A pan that the
line has left is asked again after its notice (R108). -/
def pinAtPan (d : Dev) (c p id vline line : Nat) : Dev :=
  let pan := currentPan d p line
  let x := d.pan pan
  let u := { Sub.new line .load with pages := [vline / 1024] }
  let n := d.nextId
  let o : MemOp := ⟨2 ^ 40, p, c, .matrix, .g, .pin id vline, 0, 0, 0, 0, 0, 0, [], [(0, u)], [], [], [], 0, 0, [], []⟩
  let enter := fun (d : Dev) =>
    if (d.pan pan).conflict.length < 16 then
      { d.setPan pan { d.pan pan with conflict := (d.pan pan).conflict ++ [(n, 0)] } with nextId := n + 1, ops := d.ops.set n o }
    else d
  if (pan != panOf d p line && (x.line line).isNone) || d.ops.any (fun e => e.2.kind == .pin id vline) then d
  else if x.conflict.any (asks d line) || blocked x d.clock (bankOf (line * 64)) u then enter d
  else if missing x u != 0 then ((startFill d pan u).map enter).getD d
  else pinNow d pan c id vline line

/-- The fault records of an operation (R286): one for each page of its lines that meets NOTMAPPED, once every page has its answer. Pin
requests sent before still end in a pin. -/
def pinFaults (c p id : Nat) (o : MOp) (d : Dev) : Dev :=
  if !o.fseqs.isEmpty then d
  else
    match o.vlines.filter (fun l => pinXlate d c p id l == .miss) with
    | [] =>
      let pages := distinct ((o.vlines.filter (fun l => pinXlate d c p id l == .fault .notMapped)).map (· / 1024))
      let r := pages.foldl (fun (r : Dev × List Nat) pg =>
        let (d, q) := addFault r.1 p (pg * 65536) 0 0 .notMapped 0 c (((d.warps.get? o.warp).map (·.wslot)).getD 0)
        (d, r.2 ++ [q])) (dropAnswers d (c / 64) (.mop id), [])
      r.1.modMop id (fun o => { o with fseqs := r.2 })
    | l => l.foldl (fun d l => addMiss d (c / 64) p (l * 64) (.mop id)) d

/-- PIN (R282, R285, R286): the line is a virtual line of the operation. -/
def pinD (c id vline : Nat) (d : Dev) : Dev :=
  match d.mops.get? id with
  | none => d
  | some o =>
    if !(d.cluster c).mq.contains id || !o.vlines.contains vline || mopEnding d o then d
    else
      let p := mopPart d o
      match pinXlate d c p id vline with
      | .miss => if o.fseqs.isEmpty then addMiss d (c / 64) p (vline * 64) (.mop id) else d
      | .fault .notMapped => pinFaults c p id o d
      | .fault f => mopTrap d o .prot (BitVec.ofNat 64 f.num)
      | .hit pa _ =>
        let line := pa / 64
        match (d.cluster c).holds.get? line with
        | some h => if writeBefore d o.warp id line then d else takeRef d c id vline line h
        | none => if requestBefore d c id line || !slotsGranted d c id then d else pinAtPan d c p id vline line

def execPin (cluster op line : Nat) (s : State) : Host.Outcome State Fault Refusal := eventStep s (pinD cluster op line)

/-- A queued operation names the line of a slot: by a virtual line that the slot was pinned for, unless the operation waits for fault
records, or by one that translates to it now. One that follows a write of its own warp to the line takes a value of its own (R285). -/
def namesSlot (d : Dev) (c line : Nat) (h : Hold) (i : Nat) : Bool :=
  match d.mops.get? i with
  | some o => ((o.fseqs.isEmpty && o.vlines.any (fun v => h.names.contains (mopPart d o, v))) || namesLine d c line i) &&
      !writeBefore d o.warp i line
  | none => false

/-- An operation in the queue still names the line, and keeps its slot (R274), unless an operation before it lacks slots (R282, log 99). -/
def keepsSlot (d : Dev) (c line : Nat) (h : Hold) : Bool :=
  match (d.cluster c).mq.find? (namesSlot d c line h) with
  | some i => slotsBefore d c i
  | none => false

/-- UNPIN (R274, R282, R119): a slot without references frees; a line that was to be flushed goes when its last pin does. -/
def unpinD (c line : Nat) (d : Dev) : Dev :=
  match (d.cluster c).holds.get? line with
  | none => d
  | some h =>
    if !h.refs.isEmpty || keepsSlot d c line h then d
    else
      let d := d.setCluster c { d.cluster c with holds := (d.cluster c).holds.erase line }
      match d.pans.find? (fun e => match e.2.line line with
          | some x => x.pins.contains c
          | none => false) with
      | some (pan, x) =>
        match x.line line with
        | some e =>
          let e := { e with pins := e.pins.erase c }
          if e.pins.isEmpty && !e.flushAt.isEmpty then
            e.flushAt.foldl (fun d q => flushed d pan (((subOf d q).map (·.1.part)).getD 0) line q)
              (d.setPan pan { x with lines := x.lines.erase line })
          else d.setLine pan line e
        | none => d
      | none => d

def execUnpin (cluster line : Nat) (s : State) : Host.Outcome State Fault Refusal := eventStep s (unpinD cluster line)

/-! ### Starting an operation (R281, R283, R288) -/

/-- The declared windows that the operation's scratch bytes lie in (R283). -/
def mopWins (c : Crew) (l : List (Bool × Nat × Nat)) : List Nat :=
  (c.wins.filter (fun e => e.2.valid && l.any (fun r => r.1 && r.2.1 < dSoff e.2.desc + dSize e.2.desc &&
    dSoff e.2.desc < r.2.1 + r.2.2))).map (·.1)

/-- No operation before this one in the queue shares a tile with it (R288). -/
def tileTurn (d : Dev) (c id : Nat) (o : MOp) : Bool :=
  ((d.cluster c).mq.takeWhile (· != id)).all (fun i => match d.mops.get? i with
    | some e => e.crew != o.crew || e.tiles.all (fun t => !o.tiles.contains t)
    | none => true)

/-- Touches and holds one window for an operation; the hold on a window that is not present begins when it becomes so (R182, R183, R283). -/
def holdWindow (id : Nat) (d : Dev) (n : Nat) : Dev :=
  match d.mops.get? id with
  | none => d
  | some o =>
    if o.holds.contains n then d
    else
      let x := d.win o.crew n
      let want := fun (d : Dev) => d.modMop id (fun o => if o.wants.contains n then o else { o with wants := o.wants ++ [n] })
      match x.state with
      | .present => (d.setWin o.crew n { x with holds := x.holds + 1 }).modMop id (fun o => { o with holds := o.holds ++ [n] })
      | _ =>
        match touchWin d o.crew n o.warp o.waddr 0 id with
        | (d, none) | (d, some .wait) => want d
        | (d, some (.record q)) => d.modMop id (fun o => { o with fseqs := o.fseqs ++ [q] })
        | (d, some (.groupErr g)) => mopTrap d o .groupErr (BitVec.ofNat 64 g)
        | (d, some (.prot f)) => mopTrap d o .prot (BitVec.ofNat 64 f.num)

/-- MATRIX_OP_START (R281, R283, R288): windows are touched and held; with every pin and hold in place and its turn come, the
operation starts. -/
def matrixStartD (c id : Nat) (d : Dev) : Dev :=
  match d.mops.get? id with
  | none => d
  | some o =>
    match o.kind, d.crews.get? o.crew with
    | .mma n a b rows x, some cr =>
      if o.started || !o.fseqs.isEmpty || mopEnding d o || cr.save == .full || cr.save == .discard || !(d.cluster c).mq.contains id then d
      else
        let wins := mopWins cr (mmaRanges n a b rows x)
        let d := wins.foldl (holdWindow id) d
        match d.mops.get? id with
        | some o =>
          if o.vlines.isEmpty && o.fseqs.isEmpty && wins.all (fun n => o.holds.contains n) && tileTurn d c id o && !mopEnding d o then
            d.modMop id (fun o => { o with started := true })
          else d
        | none => d
    | _, _ => d

def execMatrixOpStart (cluster op : Nat) (s : State) : Host.Outcome State Fault Refusal := eventStep s (matrixStartD cluster op)

/-! ### Operand values (R279, R287) -/

/-- Where an operation reads: its cluster, the lines it has pinned and its crew's scratch base. -/
structure MSrc where
  cl : Cluster
  pins : List (Nat × Nat)
  sbase : Nat

/-- A byte of an operand, and its location when it is poisoned. -/
def MSrc.byte (m : MSrc) (scratch : Bool) (a : Nat) : Nat × Option Nat :=
  if scratch then
    ((memRead m.cl.scratch (m.sbase + a)).toNat,
      if m.cl.spoison.contains ((m.sbase + a) / 16) then some (2 ^ 63 + a / 16 * 16) else none)
  else
    let line := ((m.pins.find? (fun e => e.1 == a / 64)).map (·.2)).getD 0
    match m.cl.holds.get? line with
    | some h => ((lineByte h.data (a % 64)).toNat,
        if h.poison.getLsbD (a % 64 / 16) then some (line * 64 + a % 64 / 16 * 16) else none)
    | none => (0, none)

/-- n bytes, little-endian, with the poisoned locations met. -/
def MSrc.bytes (m : MSrc) (scratch : Bool) : Nat → Nat → Nat × List Nat
  | _, 0 => (0, [])
  | a, n + 1 =>
    let (v, p) := m.byte scratch a
    let (r, l) := m.bytes scratch (a + 1) n
    (v + 256 * r, p.toList ++ l)

/-- A row of A or a column of B: its K values before scaling, one scale per group of 16, flags, poisoned locations. -/
structure Vec where
  vals : List Num
  scales : List (Nat × Int)
  flags : W64
  bad : List Nat
  sbad : List Nat

/-- The codes of a block: element values of n codes of a width, from a little-endian number. -/
def codesOf (wd v : Nat) : Nat → List Nat
  | 0 => []
  | n + 1 => v % 2 ^ wd :: codesOf wd (v / 2 ^ wd) n

/-- The values of codes of a format with header hdr (R229, R230, R233). -/
def decodeCodes (fmt hdr : Nat) (cs : List Nat) : List Num × W64 :=
  match fmt with
  | 14 => q4xValues cs hdr
  | 13 => (cs.map (fun c => intNum (int4 c).1), cs.foldl (fun f c => f ||| (int4 c).2) 0)
  | 0 => (cs.map (fun c => intNum (BitVec.ofNat 8 c).toInt), 0)
  | f => (cs.map (decodeF (fmtOf f)), 0)

/-- One block of an operand: n elements from `at_`, with its scale. -/
def blockVec (m : MSrc) (o : Opnd) (at_ n : Nat) (scaleAt : Option Nat) : Vec :=
  let wd := fmtBits o.fmt
  let (v, bad) := m.bytes o.scratch at_ (n * wd / 8)
  let cs := codesOf wd v n
  let groups := n / 16
  match scaleAt with
  | none =>
    let (vals, fl) := decodeCodes o.fmt 0 cs
    ⟨vals, List.replicate groups (1, 0), fl, bad, []⟩
  | some sa =>
    let (h, sbad) := m.bytes o.scratch sa o.entry
    let (sm, se, sfl) := scaleOf (h % 256)
    if sm = 0 then ⟨List.replicate n (.fin false 0 0), List.replicate groups (0, 0), sfl, bad, sbad⟩
    else
      let (vals, fl) := decodeCodes o.fmt h cs
      ⟨vals, List.replicate groups (sm, se), fl ||| sfl, bad, sbad⟩

def Vec.append (a b : Vec) : Vec := ⟨a.vals ++ b.vals, a.scales ++ b.scales, a.flags ||| b.flags, a.bad ++ b.bad, a.sbad ++ b.sbad⟩

/-- Row or column i of an operand (R279). -/
def opndVec (m : MSrc) (o : Opnd) (k i : Nat) : Vec :=
  let base := (o.addr + i * o.str) % 2 ^ 64
  if !o.sc then blockVec m o base k none
  else
    (List.range (o.blocks k)).foldl (fun v b =>
      let k0 := b * o.blockLen
      v.append (blockVec m o (base + k0 * fmtBits o.fmt / 8) (Nat.min o.blockLen (k - k0))
        (some ((o.scl + i * o.sstr + b * o.entry) % 2 ^ 64)))) ⟨[], [], 0, [], []⟩

/-! ### Products (R240 to R242) -/

/-- The product of two elements; a zero-scaled block makes +0 (R241). -/
def prodOf (za zb : Bool) (x y : Num) : Num := if za || zb then .fin false 0 0 else (mulNum x y).1

def isInf (neg : Bool) : Num → Bool
  | .inf a => a == neg
  | _ => false

/-- Truncates a product to a multiple of 2^q, and says whether a bit was dropped. -/
def truncTo (q : Int) : Num → Num × Bool
  | .fin neg m e => if q ≤ e then (.fin neg m e, false) else
      let s := (q - e).toNat
      (.fin neg (m / 2 ^ s) q, m % 2 ^ s != 0)
  | x => (x, false)

/-- Exponent of the largest finite product; none when all are zero. -/
def topOf : List Num → Option Int
  | [] => none
  | x :: r =>
    match x, topOf r with
    | .fin _ m e, t => if m = 0 then t else some (match t with
        | some y => max y ((topBit m : Int) + e)
        | none => (topBit m : Int) + e)
    | _, t => t

/-- The exact sum of finite numbers at exponent k. -/
def sumAt (k : Int) : List Num → Int
  | [] => 0
  | .fin neg m e :: r => signedAt neg m e k + sumAt k r
  | _ :: r => sumAt k r

def leastExp : List Num → Int
  | [] => 0
  | [.fin _ _ e] => e
  | .fin _ _ e :: r => min e (leastExp r)
  | _ :: r => leastExp r

def negZero : Num → Bool
  | .fin true 0 _ => true
  | _ => false

/-- group_sum of R240 and R241; `wide` says that an operand is FP16 or BF16. -/
def groupSum (wide : Bool) (ps : List Num) : Num × W64 :=
  if ps.any isNan || (ps.any (isInf false) && ps.any (isInf true)) then (.nan, fNV)
  else if ps.any (isInf false) then (.inf false, 0)
  else if ps.any (isInf true) then (.inf true, 0)
  else
    match topOf ps with
    | none => (.fin (ps.all negZero) 0 0, 0)
    | some e =>
      let t := if wide then ps.map (truncTo (e - 60)) else ps.map (fun p => (p, false))
      let qs := t.map (·.1)
      let k := leastExp qs
      let s := sumAt k qs
      (.fin (decide (s < 0)) s.natAbs k, if t.any (·.2) then fNX else 0)

/-- One group of dot: the accumulator after it; none is an accumulator that is overwritten. -/
def dotGroup (wide : Bool) (acc : Option Nat) (ps : List Num) (sa sb : Nat × Int) : Nat × W64 :=
  let (s, f1) := groupSum wide ps
  let (v, f2) := roundTo fFP32 0 false (mulNum s (.fin false (sa.1 * sb.1) (sa.2 + sb.2))).1
  match acc with
  | none => (v, f1 ||| f2)
  | some a =>
    let (x, f3) := addNum false (decodeF fFP32 a) (decodeF fFP32 v)
    let (r, f4) := roundTo fFP32 0 false x
    (r, f1 ||| f2 ||| f3 ||| f4)

/-- The products of a group. -/
def groupProds (za zb : Bool) : List Num → List Num → List Num
  | x :: r, y :: s => prodOf za zb x y :: groupProds za zb r s
  | _, _ => []

/-- dot of R240: groups in increasing K. -/
def dotF (wide : Bool) : List (Nat × Int) → List (Nat × Int) → List Num → List Num → Option Nat → W64 → Nat × W64
  | sa :: ra, sb :: rb, xs, ys, acc, fl =>
    let (v, f) := dotGroup wide acc (groupProds (sa.1 == 0) (sb.1 == 0) (xs.take 16) (ys.take 16)) sa sb
    dotF wide ra rb (xs.drop 16) (ys.drop 16) (some v) (fl ||| f)
  | _, _, _, _, acc, fl => (acc.getD 0, fl)

/-- int_dot of R242, over the groups. -/
def dotI : Nat → List Num → List Num → Int → W64 → Nat × W64
  | 0, _, _, acc, fl => ((acc % 2 ^ 32).toNat, fl)
  | g + 1, xs, ys, acc, fl =>
    let s := acc + sumAt 0 (groupProds false false (xs.take 16) (ys.take 16))
    let c := max (-2 ^ 31) (min s (2 ^ 31 - 1))
    dotI g (xs.drop 16) (ys.drop 16) c (if c = s then fl else fl ||| fISAT)

/-- The element (i, j) of the result; a poisoned factor makes the NaN, or 0 on the integer path, and no flag (R287). -/
def element (int wide acc : Bool) (a b : Vec) (old : W32) : Nat × W64 :=
  if !(a.bad.isEmpty && a.sbad.isEmpty && b.bad.isEmpty && b.sbad.isEmpty) then (if int then 0 else 0x7FC00000, 0)
  else
    let r := if int then dotI a.scales.length a.vals b.vals (if acc then old.toInt else 0) 0
      else dotF wide a.scales b.scales a.vals b.vals (if acc then some old.toNat else none) 0
    (r.1, r.2 ||| a.flags ||| b.flags)

/-- A tile row from its values in column order. -/
def rowOf : List Nat → Nat
  | [] => 0
  | v :: r => v % 2 ^ 32 + 2 ^ 32 * rowOf r

/-- Row i of physical tile t. -/
def Cluster.tileRow (c : Cluster) (t i : Nat) : LaneReg := c.tiles.getD (t * 64 + i) 0

def leastLoc (l : List Nat) : Option W64 :=
  match l with
  | [] => none
  | x :: r => some (BitVec.ofNat 64 (r.foldl Nat.min x))

/-- The results of an operation: the cluster with its tiles written, the flags and the first poisoned location. -/
def mmaResult (m : MSrc) (tiles : List Nat) (n : Nat) (a b : W64) (rows : W64) (x : BitVec 256) : Cluster × W64 × Option W64 :=
  let oa := opndA a x
  let ob := opndB b x
  let int := intPath oa ob
  let wide := fmtBits oa.fmt == 16 || fmtBits ob.fmt == 16
  let rs := (lanesOn rows).map (fun i => (i, opndVec m oa (fbK x) i))
  let cols := if rows = 0 then [] else (List.range (64 * n)).map (opndVec m ob (fbK x))
  let (cl, fl) := rs.foldl (fun (z : Cluster × W64) r =>
    (List.zip tiles (List.range n)).foldl (fun (z : Cluster × W64) t =>
      let old := z.1.tileRow t.1 r.1
      let es := ((cols.drop (64 * t.2)).take 64).mapIdx (fun j v => element int wide (fbAcc x) r.2 v (laneGet old j))
      ({ z.1 with tiles := z.1.tiles.set (t.1 * 64 + r.1) (BitVec.ofNat 2048 (rowOf (es.map (·.1)))) },
        es.foldl (fun f e => f ||| e.2) z.2)) z) (m.cl, 0)
  let locs := [rs.flatMap (fun r => r.2.bad), rs.flatMap (fun r => r.2.sbad), cols.flatMap (·.bad), cols.flatMap (·.sbad)]
  (cl, fl, (locs.find? (fun l => !l.isEmpty)).bind leastLoc)

/-- An operation leaves the engine: its references and holds are released, and its batch may complete. -/
def mopFinish (d : Dev) (c id : Nat) (o : MOp) : Dev :=
  let x := d.cluster c
  let d := d.setCluster c { x with
    mq := x.mq.filter (· != id)
    holds := x.holds.map (fun h => (h.1, { h.2 with refs := h.2.refs.filter (· != id) })) }
  let d := o.holds.foldl (fun d n => releaseHold d o.crew n) d
  let d := forgetAsks d (· == .mop id)
  closeBatches (d.modMop id (fun o => { o with pins := [], holds := [], wants := [], vlines := [] })) o.warp

/-- MATRIX_OP_COMPLETE (R281, R287, R292). Plain scratch, which R283 lets the engine read at any moment between issue and completion, is read
here, all at one instant (log 112). -/
def matrixCompleteD (c id : Nat) (d : Dev) : Dev :=
  match d.mops.get? id with
  | none => d
  | some o =>
    match o.kind, d.crews.get? o.crew with
    | .mma n a b rows x, some cr =>
      if !o.started || !(d.cluster c).mq.contains id then d
      else
        let tiles := o.tiles.map (fun t => cr.tiles.getD t 0)
        let (cl, fl, err) := mmaResult ⟨d.cluster c, o.pins, cr.sbase⟩ tiles n a b rows x
        mopFinish ((d.setCluster c cl).modMop id (fun o => { o with flags := fl, err := err })) c id o
    | _, _ => d

def execMatrixOpComplete (cluster op : Nat) (s : State) : Host.Outcome State Fault Refusal := eventStep s (matrixCompleteD cluster op)

/-! ### mdrain (R293 to R299) -/

def edBias (x : BitVec 256) : W64 := BitVec.ofNat 64 (blkField x 0 8)
def edScale (x : BitVec 256) : W64 := BitVec.ofNat 64 (blkField x 8 8)
def edRows (x : BitVec 256) : Mask := BitVec.ofNat 64 (blkField x 16 8)
def edCreg (x : BitVec 256) : Nat := blkField x 24 2
def edAct (x : BitVec 256) : Nat := blkField x 26 1
def edOut (x : BitVec 256) : Nat := blkField x 27 1
def edIn (x : BitVec 256) : Nat := blkField x 28 1

/-- The descriptor's contents (R295 step 4). -/
def edOk (x : BitVec 256) : Bool :=
  blkField x 29 3 == 0 && edAct x ≤ 4 && [0, 2, 8, 9, 10, 11, 12, 13].contains (edOut x) && edIn x ≤ 1 &&
    (edBias x).toNat % 64 == 0 && (edScale x).toNat % 64 == 0 && !(edIn x == 1 && 9 ≤ edOut x && edOut x ≤ 12 && edAct x == 0)

/-- Values in a row of results (R298). -/
def edCount (x : BitVec 256) : Nat := if edAct x = 4 then 16 else 64
/-- Destination registers (R298). -/
def edRegs (x : BitVec 256) : Nat := edCount x * tyW (edOut x) / 32

/-- Reads n bytes at a virtual address that may cross a page, as device-scope scalar loads, which count on G or not. -/
def withLoadAny (counts : Bool) (d : Dev) (k : Nat) (w : Warp) (a : W64) (n : Nat) (f : Nat → Dev) : Dev :=
  let n1 := Nat.min n (65536 - a.toNat % 65536)
  withVa d k w a (fun v => withLoad false counts d k w 4 v n1 (fun x =>
    if n1 = n then f x
    else withVa d k w (a + BitVec.ofNat 64 n1) (fun v2 => withLoad false counts d k w 4 v2 (n - n1) (fun y => f (x + 256 ^ n1 * y)))))

def withReadAny (d : Dev) (k : Nat) (w : Warp) (a : W64) (n : Nat) (f : Nat → Dev) : Dev := withLoadAny true d k w a n f

/-- Reads 64 FP32 values, none at address 0. -/
def withFloats (d : Dev) (k : Nat) (w : Warp) (a : W64) (f : List W32 → Dev) : Dev :=
  if a = 0 then f [] else withReadAny d k w a 256 (fun x => f ((codesOf 32 x 64).map (BitVec.ofNat 32)))

/-- An operation of the warp on the tile is suspended by a fault record: the warp parks at its mdrain (R286). -/
def tileSuspended (d : Dev) (k : Nat) (w : Warp) (tile : Nat) : Bool :=
  (d.cluster w.cluster).mq.any (fun i => match d.mops.get? i with
    | some o => o.warp == k && o.tiles.contains tile && !o.fseqs.isEmpty
    | none => false)

/-- The drain enters the matrix queue (R299). -/
def drainQueue (word : W32) (tile dst : Nat) (desc : Option (BitVec 256)) (bias scale : List W32) (regs : List Nat) (d : Dev) (k : Nat) (w : Warp) : Dev :=
  if 64 ≤ (d.cluster w.cluster).mq.length || tileSuspended d k w tile then stall d k w
  else
    let id := d.nextId
    let d := pushMop d w.cluster
      ⟨k, w.crewKey, w.spc.toNat, .drain dst desc bias scale w.nmode, [tile], word, false, [], [], [], [], [], 0, none⟩
    done d k { w with drains := w.drains ++ [(id, w.blocks + w.queue.length, regs)] } 4

/-- MDRAIN (R295). -/
def mdrainWord (f a : BitVec 6) (imm : BitVec 14) : Dev → Nat → Warp → Dev :=
  checked [ckZero (imm.toNat < 2048), ckD (decide (f.toNat < 16)), ckImm (decide (imm.toNat % 2048 < 1536))] (interlock [a.toNat] (fun d k w =>
    let dst := imm.toNat % 2048
    let va := w.s a.toNat
    if !declared d w f.toNat then illegal d k w (.illOpnd, 4)
    else if va = 0 then
      if 32 * w.valloc < dst + 64 then illegal d k w (.illOpnd, 7)
      else drainQueue (encSI 38 f a imm) f.toNat dst none [] [] ((List.range 64).map (· + dst)) d k w
    else if va.toNat % 32 ≠ 0 then scalarTrap d k w 4 .align va []
    else withVa d k w va (fun v => withRead d k w 4 v 32 (fun y =>
      let x : BitVec 256 := BitVec.ofNat 256 y
      withFloats d k w (edBias x) (fun bias => withFloats d k w (edScale x) (fun scale =>
        if !edOk x then illegal d k w (.illOpnd, 5)
        else
          let regs := edRegs x
          let c := edCreg x
          if 32 * w.valloc < dst + regs then illegal d k w (.illOpnd, 7)
          else if edAct x = 4 ∧ (32 * w.valloc < c + 16 ∨ (c < dst + regs ∧ dst < c + 16)) then illegal d k w (.illOpnd, 5)
          else drainQueue (encSI 38 f a imm) f.toNat dst (some x) bias scale
            ((List.range regs).map (· + dst) ++ (if edAct x = 4 then (List.range 16).map (· + c) else [])) d k w))))))

def execMdrain (d a : BitVec 6) (imm : BitVec 14) (s : State) : Host.Outcome State Fault Refusal := scalarWord s (mdrainWord d a imm)

/-! ### The epilogue (R296 to R298) -/

/-- A value into FP32, with flags. -/
def f32Of (x : Num) (f : W64) : W32 × W64 := ((toFP32 x).1, f ||| (toFP32 x).2)

/-- The bias and scale step, then ACT 1 to 3 (R296): an FP32 pattern. -/
def epi (x : BitVec 256) (bias scale : List W32) (v : W32) (j : Nat) : W32 × W64 :=
  let r := if edIn x = 1 then f32Of (intNum v.toInt) 0 else f32Of (decode32 v) 0
  let r := if bias.isEmpty && scale.isEmpty then r
    else
      let m := mulNum (decode32 r.1) (decode32 (if scale.isEmpty then one32 else scale.getD j 0))
      let s := addNum false m.1 (decode32 (if bias.isEmpty then zero32 true else bias.getD j 0))
      f32Of s.1 (r.2 ||| m.2 ||| s.2)
  let act := fun (f : Fn) => let y := fnEval f r.1; (y.1, r.2 ||| y.2)
  match edAct x with
  | 1 => act .sigmoid
  | 2 => act .tanh
  | 3 => act .gelu
  | _ => r

/-- Narrows a number into the output type (R298). -/
def epiOut (nmode : W64) (t : Nat) (x : Num) : Nat × W64 :=
  if isFloat t then roundType nmode t x
  else
    let c := control nmode t
    toInteger false (cvtRange t).1 (cvtRange t).2 (tyW t) c.1 c.2 x

/-- The gate combine of one unit (R297): the new cell state and the output, in FP32. -/
def gateUnit (e : Nat → W32) (cell : W32) (u : Nat) : W32 × W32 × W64 :=
  let ig := fnEval .sigmoid (e u)
  let fg := fnEval .sigmoid (e (16 + u))
  let gg := fnEval .tanh (e (32 + u))
  let og := fnEval .sigmoid (e (48 + u))
  let p := mulNum (decode32 fg.1) (decode32 cell)
  let q := mulNum (decode32 ig.1) (decode32 gg.1)
  let s := addNum false p.1 q.1
  let cn := f32Of s.1 (p.2 ||| q.2 ||| s.2)
  let th := fnEval .tanh cn.1
  let hm := mulNum (decode32 og.1) (decode32 th.1)
  let h := f32Of hm.1 hm.2
  (cn.1, h.1, ig.2 ||| fg.2 ||| gg.2 ||| og.2 ||| cn.2 ||| th.2 ||| h.2)

/-- Packs values of wd bits into 32-bit registers (R298). -/
def packRegs (wd : Nat) (vs : List Nat) : Nat → List Nat
  | 0 => []
  | n + 1 => ((vs.take (32 / wd)).foldr (fun v a => v % 2 ^ wd + 2 ^ wd * a) 0) :: packRegs wd (vs.drop (32 / wd)) n

/-- The registers that a drain writes in one lane, from its tile row: (register, value) pairs and flags. -/
def drainLane (w : Warp) (dst : Nat) (desc : Option (BitVec 256)) (bias scale : List W32) (nmode : W64) (row : LaneReg) (lane : Nat) :
    List (Nat × Nat) × W64 :=
  match desc with
  | none => ((List.range 64).map (fun j => (dst + j, (laneGet row j).toNat)), 0)
  | some x =>
    let out := edOut x
    let place := fun (vs : List Nat) => (packRegs (tyW out) vs (edRegs x)).mapIdx (fun i v => (dst + i, v))
    if edAct x = 4 then
      let es := (List.range 64).map (fun j => epi x bias scale (laneGet row j) j)
      let e := fun (j : Nat) => (es.getD j (0, 0)).1
      let us := (List.range 16).map (fun u => gateUnit e (laneGet (w.v (edCreg x + u)) lane) u)
      let hs := us.map (fun u => epiOut nmode out (decode32 u.2.1))
      (place (hs.map (·.1)) ++ us.mapIdx (fun u r => (edCreg x + u, r.1.toNat)),
        es.foldl (fun f r => f ||| r.2) (us.foldl (fun f r => f ||| r.2.2) (hs.foldl (fun f r => f ||| r.2) 0)))
    else
      let int := edIn x == 1 && edAct x == 0 && bias.isEmpty && scale.isEmpty && [0, 2, 13].contains out
      let vs := (List.range 64).map (fun j =>
        if int then epiOut nmode out (intNum (laneGet row j).toInt)
        else
          let r := epi x bias scale (laneGet row j) j
          let o := epiOut nmode out (decode32 r.1)
          (o.1, r.2 ||| o.2))
      (place (vs.map (·.1)), vs.foldl (fun f r => f ||| r.2) 0)

/-- Every lane word of the first `after` blocks of a warp has written its results (R299). -/
def earlierWritten (d : Dev) (w : Warp) (after : Nat) : Bool :=
  w.pendV.all (fun x => match d.ops.get? x.1 with
    | some o => after ≤ o.blk
    | none => false)

/-- DRAIN_PERFORM (R298, R299). -/
def drainPerformD (c id : Nat) (d : Dev) : Dev :=
  match d.mops.get? id with
  | none => d
  | some o =>
    match o.kind, d.crews.get? o.crew, d.warps.get? o.warp with
    | .drain dst desc bias scale nmode, some cr, some w =>
      let after := ((w.drains.find? (fun e => e.1 == id)).map (·.2.1)).getD 0
      if !tileTurn d c id o || w.blocks < after || !earlierWritten d w after || !(d.cluster c).mq.contains id then d
      else
        let t := cr.tiles.getD (o.tiles.headD 0) 0
        let lanes := lanesOn (match desc with
          | some x => edRows x
          | none => allLanes)
        let w' := lanes.foldl (fun (z : Warp) i =>
          let (rs, fl) := drainLane w dst desc bias scale nmode ((d.cluster c).tileRow t i) i
          (rs.foldl (fun z r => z.setV r.1 [(i, r.2)]) z).orFlags fl) w
        let d := d.setWarp o.warp { w' with drains := w'.drains.filter (fun e => e.1 != id) }
        let x := d.cluster c
        { d.setCluster c { x with mq := x.mq.filter (· != id) } with mops := d.mops.erase id }
    | _, _, _ => d

def execDrainPerform (cluster op : Nat) (s : State) : Host.Outcome State Fault Refusal := eventStep s (drainPerformD cluster op)

/-! ### ppoint (R301) -/

/-- PPOINT: with a save of the crew pending the warp stops at the word with its live-tile mask. -/
def ppointWord (f a b : BitVec 6) : Dev → Nat → Warp → Dev :=
  checked [ckZero (f == 0#6 && b == 0#6)] (interlock [a.toNat] (fun d k w =>
    let v := w.s a.toNat
    if bits v 63 16 ≠ 0 then illegal d k w (.illOpnd, 5)
    else if savePending d w then
      match closeOpen w with
      | none => stall d k w
      | some w => closeBatches (d.setWarp k { w with park := .save, live := v, xs := [] }) k
    else done d k w 4))

def execPpoint (d a b : BitVec 6) (s : State) : Host.Outcome State Fault Refusal := scalarWord s (ppointWord d a b)

end Sys2Proof.Machine
end

