-- ==== Sys2Proof/Machine/Nests.lean ====
section
/-!
DEFINITION. Nests, the rake, crews and points (R325 to R359): nest.launch, nest.grow, nest.idx, pdone, the steps GANG_PLACEMENT and
POINT_RETIRE, and the ending of a nest (R389).
-/
namespace Sys2Proof.Machine

/-! ### The record (R325 to R329) -/

/-- A signed little-endian field. -/
def recInt (r : BitVec 2048) (byte n : Nat) : Int := (BitVec.ofNat (8 * n) (recField r byte n)).toInt

def boundAt (j : Nat) : Nat := 80 + 20 * j
/-- Coefficient k of the lower or upper bound of dimension j (R328). -/
def lCoef (r : BitVec 2048) (j k : Nat) : Int := recInt r (boundAt j + 8 + 2 * k) 2
def hCoef (r : BitVec 2048) (j k : Nat) : Int := recInt r (boundAt j + 14 + 2 * k) 2

/-- A dependence vector's components of dimensions 0 to 3 (R329). -/
def depVec (r : BitVec 2048) (v : Nat) : List Int := (List.range 4).map (fun k => recInt r (160 + 4 * v + k) 1)

def clamp32 (x : Int) : Int := max (-2 ^ 31) (min x (2 ^ 31 - 1))

/-- Bounds of dimension j for outer indices (R328). -/
def Nest.lo (n : Nest) (j : Nat) (idx : List Int) : Int :=
  clamp32 (recInt n.record (boundAt j) 4 + (List.range j).foldl (fun s k => s + lCoef n.record j k * idx.getD k 0) 0)
def Nest.hiSlope (n : Nest) (j : Nat) (idx : List Int) : Int :=
  (List.range j).foldl (fun s k => s + hCoef n.record j k * idx.getD k 0) 0
def Nest.hi (n : Nest) (j : Nat) (idx : List Int) : Int := clamp32 (n.hc.getD j 0 + n.hiSlope j idx)

/-- The indices lie in the space of the dimensions that they name (R328). -/
def Nest.inSpace (n : Nest) (idx : List Int) : Bool :=
  (List.range idx.length).all (fun j => n.lo j idx ≤ idx.getD j 0 && idx.getD j 0 < n.hi j idx)

/-- Lexicographic order of tuples; "older" (R325). -/
def older : List Int → List Int → Bool
  | [], [] => false
  | [], _ :: _ => true
  | _ :: _, [] => false
  | x :: r, y :: s => x < y || (x == y && older r s)

/-! ### Launch checks (R332) -/

def zeroBytesIn (r : BitVec 2048) (from_ n : Nat) : Bool := recField r from_ n == 0

/-- Code 1, but for the page's permission. -/
def recordForm (r : BitVec 2048) : Bool :=
  let ctl := recField r 52 4
  let dims := ctl % 4 + 1
  let ndep := ctl / 16 % 16
  let shape := recField r 56 4
  let wcnt := shape / 2 ^ 18 % 32
  let sentry := recField r 0 8
  let scb := recField r 8 8
  let sclen := recField r 48 4
  ctl / 4 % 4 == 0 && ctl / 2 ^ 16 == 0 && shape % 256 == 0 && ndep ≤ 8 &&
    (List.range 4).all (fun j => j < dims || zeroBytesIn r (boundAt j) 20) &&
    (List.range 8).all (fun v => v < ndep || zeroBytesIn r (160 + 4 * v) 4) && zeroBytesIn r 208 48 &&
    (List.range dims).all (fun j => (List.range 3).all (fun k => k < j || (lCoef r j k == 0 && hCoef r j k == 0))) &&
    sentry % 4 == 0 && scb ≤ sentry && sentry < scb + sclen && scb % 64 == 0 && recField r 16 8 % 64 == 0 &&
    (wcnt == 0 || recField r 32 8 % 64 == 0) && recField r 40 8 % 64 == 0 && recField r 40 8 != 0 && sclen % 4 == 0 && sclen != 0

/-- A vector keeps R329. -/
def depOk (dims : Nat) (v : List Int) : Bool :=
  (v.drop dims).all (· == 0) && (match (v.find? (· != 0)) with
    | some x => decide (0 < x)
    | none => false)

/-- The shape keeps R326 and R327. -/
def shapeOk (r : BitVec 2048) : Bool :=
  let shape := recField r 56 4
  let warps := shape / 256 % 16 + 1
  let gran := shape / 4096 % 64
  let gang := recField r 52 4 / 512 % 16 + 1
  let cmax := recField r 62 2
  shape / 2 ^ 23 ≤ 256 && shape / 2 ^ 18 % 32 ≤ 16 && 1 ≤ gran && gran ≤ 48 && (warps + 3) / 4 * gran ≤ 48 && (cmax == 0 || gang ≤ cmax)

/-- The first window that fails R179: its index and bind status. -/
def badWindow (r : BitVec 2048) (descs : List Desc) : Option (Nat × Nat) :=
  (List.range descs.length).findSome? (fun i =>
    let st := bindStatus (descs.getD i 0) (recField r 56 4 / 2 ^ 23 * 4096) (descs.take i) (fun g => recField r (64 + g) 1 != 0)
    if st = 0 then none else some (i, st))

/-- Nests of a partition that are active, saved ones included. -/
def activeNests (d : Dev) (p : Nat) : List Nest :=
  ((d.nests.map (·.2)) ++ d.savedNests.map (·.nest)).filter (fun n => n.part == p)

/-- The rake that holds a nest launched at a die (R335). -/
def rakeFor (d : Dev) (die : Nat) : Option Nat :=
  let used := fun (i : Nat) => (d.nests.filter (fun e => e.1 / 64 == i)).length
  if used die < 64 then some die
  else (List.range 4).foldl (fun b i => match b with
    | some j => if used i < used j then some i else b
    | none => if used i < 64 then some i else none) none

/-- The launch status word (R332): code, window index and bind status. -/
def launchStatus (d : Dev) (p die : Nat) (r : BitVec 2048) (descs : List Desc) (writable : Bool) : Nat :=
  let dims := recField r 52 4 % 4 + 1
  let ndep := recField r 52 4 / 16 % 16
  if !recordForm r || !writable then 1
  else if !(List.range ndep).all (fun v => depOk dims (depVec r v)) then 2
  else if !shapeOk r then 3
  else match badWindow r descs with
    | some (i, st) => 4 + 256 * i + 65536 * st
    | none =>
      if (activeNests d p).any (fun n => recField n.record 40 8 == recField r 40 8) then 5
      else if (rakeFor d die).isNone then 6
      else if bits (d.part p).pctl 31 24 ≤ (activeNests d p).length then 7
      else 0

/-! ### Rows and releases (R336 to R341) -/

def Nest.outer (n : Nest) : Nat := n.dims - 1

/-- The first index from i for which f finds a tuple. -/
def scanIdx (f : Int → Option (List Int)) : Nat → Int → Option (List Int)
  | 0, _ => none
  | m + 1, i => match f i with
    | some r => some r
    | none => scanIdx f m (i + 1)

/-- The oldest completion of a prefix by `levels` more outer indices. -/
def firstRow (n : Nest) : Nat → List Int → Option (List Int)
  | 0, pre => some pre
  | l + 1, pre =>
    let lo := n.lo pre.length pre
    scanIdx (fun i => firstRow n l (pre ++ [i])) (n.hi pre.length pre - lo).toNat lo

/-- The oldest tuple newer than t that differs from it first at an index below j. -/
def rowAfter (n : Nest) (t : List Int) : Nat → Option (List Int)
  | 0 => none
  | j + 1 =>
    let pre := t.take j
    let from_ := max (t.getD j 0 + 1) (n.lo j pre)
    match (if n.inSpace pre then scanIdx (fun i => firstRow n (n.outer - j - 1) (pre ++ [i])) (n.hi j pre - from_).toNat from_ else none) with
    | some r => some r
    | none => rowAfter n t j

/-- The next row to enter (R337). -/
def Nest.nextRow (n : Nest) : Option (List Int) :=
  match n.newest with
  | none => firstRow n n.outer []
  | some t => rowAfter n t n.outer

def Row.len (r : Row) : Nat := (r.hi - r.lo).toNat
/-- The next position of a row. -/
def Row.next (r : Row) : Int := r.lo + (r.issued : Int)

/-- Leaving and entering of rows under R337; the fuel exceeds the number of tuples. -/
def settleRows : Nat → Nest → Nest
  | 0, n => n
  | fuel + 1, n =>
    match n.rows with
    | r :: rest =>
      if r.pre = r.len then settleRows fuel { n with rows := rest }
      else if n.rows.length < 256 then
        match n.nextRow with
        | some t => settleRows fuel { n with newest := some t, rows := n.rows ++ [⟨t, n.lo n.outer t, n.hi n.outer t, 0, 0, 0⟩] }
        | none => n
      else n
    | [] =>
      match n.nextRow with
      | some t => settleRows fuel { n with newest := some t, rows := [⟨t, n.lo n.outer t, n.hi n.outer t, 0, 0, 0⟩] }
      | none => n

def rowFuel : Nat := 2 ^ 100

/-- dep_met of R338. -/
def Nest.depMet (n : Nest) (x dv : List Int) : Bool :=
  let y := (List.range n.dims).map (fun k => x.getD k 0 - dv.getD k 0)
  let r := y.take n.outer
  if !n.inSpace y then true
  else match n.rows.head?, n.rows.getLast? with
    | some first, some last =>
      if older r first.i then true
      else if older last.i r then false
      else match n.rows.find? (fun e => e.i == r) with
        | none => true
        | some rw =>
          let k := y.getD n.outer 0 - (rw.lo + rw.pre)
          if k < 0 then true else if 128 ≤ k then false else rw.bitmap.getLsbD k.toNat
    | _, _ => true

/-- The oldest point that R339 could release. -/
def Nest.candidate (n : Nest) : Option (List Int) :=
  (n.rows.find? (fun rw =>
    let x := rw.i ++ [rw.next]
    rw.issued < rw.len && rw.issued < rw.pre + 128 && (List.range n.ndep).all (fun v => n.depMet x (depVec n.record v)))).map
    (fun rw => rw.i ++ [rw.next])

/-- Outstanding-point entries of a rake in use (R341). -/
def outstanding (d : Dev) (die : Nat) : Nat := (d.nests.filter (fun e => e.1 / 64 == die)).foldl (fun s e => s + e.2.points.length) 0

/-- A crew waits for a point. -/
def Crew.idle (c : Crew) : Bool := c.point.isNone && c.save == .none

def crewsOf (d : Dev) (nk : Nat) : Tab Crew := d.crews.filter (fun e => e.2.id.nest == nk)

/-- The idle crew with the lowest crew number. -/
def idleCrew (d : Dev) (nk : Nat) : Option (Nat × Crew) :=
  ((crewsOf d nk).filter (fun e => e.2.idle)).foldl (fun b e => match b with
    | some x => if e.2.id.num < x.2.id.num then some e else b
    | none => some e) none

/-- Shifts the retired prefix out of the bitmap (R340). -/
def shiftRow (r : Row) : Row :=
  times (fun r => if r.bitmap.getLsbD 0 then { r with bitmap := r.bitmap >>> 1, pre := r.pre + 1 } else r) 128 r

def retireRow (x : Int) (r : Row) : Row :=
  shiftRow { r with bitmap := r.bitmap ||| BitVec.ofNat 128 (2 ^ (x - (r.lo + r.pre)).toNat) }

/-- A finished point without children (R349). -/
def OutPt.retires (p : OutPt) : Bool := p.finished && p.children == 0

/-- Retirement of a point (R340). -/
def Nest.retire (n : Nest) (p : OutPt) : Nest :=
  let x := p.pt.idx
  { n with
    points := n.points.filter (fun q => q.pt.linear != p.pt.linear)
    rows := n.rows.map (fun r => if r.i = x.take n.outer then retireRow (x.getD n.outer 0) r else r) }

/-- Every finished point without children retires at once (R349). -/
def Nest.retireAll (n : Nest) : Nest := (n.points.filter (·.retires)).foldl Nest.retire n

/-- The rake hands a point to a crew (R347, R318). -/
def handPoint (sentry : Nat) (d : Dev) (ck : Nat) (c : Crew) (pt : Pt) : Dev :=
  let d := d.setCrew ck { c with point := some pt }
  let d := c.warps.foldl (fun d wk => d.modWarp wk (fun w =>
    { w with spc := BitVec.ofNat 64 sentry, queue := [], lword := 0, park := .run, lpark := .run, xs := [], xl := [],
             rd := Reads.empty, rl := Reads.empty,
             ready := d.clock + 1, lready := d.clock + 1, rank := 0 })) d
  acquireAct d c.cluster .v

/-- One release, of a point to be run again first (R339, R396). -/
def releaseOne (nk : Nat) (d : Dev) : Dev :=
  match d.nests.get? nk, idleCrew d nk with
  | some n, some (ck, c) =>
    match n.rerun with
    | pt :: rest =>
      let points := n.points.map (fun p => if p.pt.linear = pt.linear then { p with crew := some c.id.num } else p)
      handPoint n.sentry (d.setNest nk { n with rerun := rest, points := points }) ck c pt
    | [] =>
      if 4096 ≤ outstanding d (nk / 64) then d
      else match n.candidate with
        | none => d
        | some x =>
          let pt : Pt := ⟨x, n.released⟩
          let rows := n.rows.map (fun r => if r.i = x.take n.outer then { r with issued := r.issued + 1 } else r)
          handPoint n.sentry (d.setNest nk { n with
            rows := rows
            released := n.released + 1
            points := n.points ++ [⟨pt, some c.id.num, false, 0, false⟩] }) ck c pt
  | _, _ => d

/-! ### Exits and completion (R350, R355, R389) -/

/-- No group fill that the crew has accepted is under way (R155). -/
def noFill (c : Crew) : Bool := c.wins.all (fun e => !(e.2.state == .filling && e.2.filler == .fill))

/-- A crew leaves its cluster: copy jobs, slots, granules and tiles; a pipe that was issuing a block of it has switched (R22). -/
def detachCrew (d : Dev) (ck : Nat) (c : Crew) : Dev :=
  let d := c.wins.foldl (fun d e => dropJob d ck e.1) d
  let x := d.cluster c.cluster
  let d := d.setCluster c.cluster { x with pipes := x.pipes.map (fun e => (e.1, { e.2 with
    grow := e.2.grow.filter (fun g => !c.warps.contains g.1) })) }
  let d := (x.pipes.filter (fun e => (e.2.cur.map (c.warps.contains ·)) == some true)).foldl (fun d e =>
    dropLatches (d.setPipe c.cluster e.1 { d.pipe c.cluster e.1 with cur := none }) c.cluster e.1) d
  let own := fun (a : Asker) => match a with
    | .thread k | .lanes k => c.warps.contains k
    | .mop i => ((d.mops.get? i).map (·.crew)) == some ck
    | .job k _ | .ask k _ | .coll k => k == ck
    | .hart _ | .rake _ => false
  let d := forgetAsks d own
  { d with
    crews := d.crews.erase ck
    warps := d.warps.filter (fun e => !c.warps.contains e.1) }

/-- The same with its groups left; its scratch stays while a crew of its gang does (R350, R406). -/
def removeCrew (d : Dev) (ck : Nat) (c : Crew) : Dev := detachCrew (c.groups.foldl (fun d g => leaveGroup d ck g.1 c) d) ck c

/-- Collectives end; their writes that are not acknowledged can still be refused or lost (R414). -/
def endColls (d : Dev) (gone : Coll → Bool) : Dev :=
  { d with
    lateAcks := d.lateAcks ++ (d.colls.filter gone).flatMap (fun e => e.pending.map (fun q => (e.part, q)))
    colls := d.colls.filter (fun e => !gone e) }

/-- A crew exits. -/
def exitCrew (d : Dev) (ck : Nat) (c : Crew) : Dev :=
  let d := removeCrew d ck c
  let d := endColls { d with
    pans := d.pans.map (fun e => (e.1, { e.2 with mail := e.2.mail.filter (fun m => m.id != c.id) })) } (fun e => e.id == c.id)
  let nk := c.id.nest
  let stays := (crewsOf d nk).any (fun e => e.2.gang == c.gang) ||
    ((d.nests.get? nk).map (fun n => n.saved.any (fun g => g.any (fun x => x.crew.gang == c.gang)))).getD false
  { d with nests := d.nests.modify nk (fun n =>
      { n with retained := if stays then n.retained ++ [(c.gang, c)] else n.retained.filter (fun r => r.1 != c.gang) }) }

/-- Every point of the current space has been released (R350). -/
def Nest.exhausted (n : Nest) : Bool := n.rows.all (fun r => r.issued == r.len) && n.nextRow.isNone && n.rerun.isEmpty

/-- Idle crews exit: of an exhausted or stopped nest, or drained (R350, R394, R402), as soon as that is so: the table beside R354 keeps an idle
crew of a nest with every point released for a point added later, which R350 does not say (log 113). -/
def exitIdle (nk : Nat) (d : Dev) : Dev :=
  match d.nests.get? nk with
  | none => d
  | some n =>
    let ended := n.exhausted || n.stopped
    (crewsOf d nk).foldl (fun d e =>
      if e.2.point.isNone && noFill e.2 && leaveReady d [e.2] && (e.2.save == .drain || (ended && e.2.save == .none)) then exitCrew d e.1 e.2 else d) d

/-- The places that hold contexts of these crews are free (R398, R407). -/
def dropImages (d : Dev) (ids : List CrewId) : Dev :=
  { d with
    pans := d.pans.map (fun e => (e.1, { e.2 with images := e.2.images.filter (fun m => !ids.contains m.id) }))
    parts := d.parts.map (fun e => (e.1, { e.2 with spill := e.2.spill.filter (fun m => !ids.contains m.id) })) }

/-- Drops the mailboxes and contexts of saved crews (R407). -/
def dropMail (d : Dev) (ids : List CrewId) : Dev :=
  { dropImages d ids with pans := (dropImages d ids).pans.map (fun e => (e.1, { e.2 with mail := e.2.mail.filter (fun m => !ids.contains m.id) })) }

def savedIds (n : Nest) : List CrewId := n.saved.flatMap (fun g => g.map (fun c => c.crew.id))

/-- Saved crews of a nest that is over leave their groups (R155, R350, R389). -/
def leaveSaved (d : Dev) (n : Nest) : Dev :=
  n.saved.foldl (fun d g => g.foldl (fun d x => x.crew.groups.foldl (fun d e => leaveGroup d (2 ^ 31) e.1 x.crew) d) d) d

/-- The saved crews of a nest that is over can leave their groups, and no write of their warps lacks its far acknowledgement (R372). -/
def overReady (d : Dev) (n : Nest) : Bool :=
  let saved := n.saved.flatten
  leaveReady d (saved.map (·.crew)) && d.ops.all (fun e => !saved.any (fun x => x.ghosts.contains e.2.warp))

/-- The record of a nest that is over has been written: its slot is freed, its parent and its queue are told (R330, R355, R372). -/
def nestGone (d : Dev) (nk : Nat) (n : Nest) : Dev :=
  let d := leaveSaved d n
  let d := endColls (dropMail d (savedIds n)) (fun c => (savedIds n).contains c.id)
  let d := { d with
    nests := d.nests.erase nk
    savedNests := d.savedNests.filter (fun e => savedKey e.nest != nk)
    queues := d.queues.map (fun e => if e.2.part = n.part then (e.1, { e.2 with retry := true }) else e) }
  let d := match n.parent with
    | some (pk, l) =>
      let f := fun (p : Nest) => { p with points := p.points.map (fun x => if x.pt.linear = l then { x with children := x.children - 1 } else x) }
      { d with
        nests := d.nests.modify pk f
        savedNests := d.savedNests.map (fun e => if savedKey e.nest = pk then { e with nest := f e.nest } else e) }
    | none => d
  match n.launch with
  | some (q, saddr, svalue, irq) =>
    { (d.setQueue q { d.queue q with open_ := (d.queue q).open_ - 1 }) with signals := d.signals ++ [⟨q, saddr, svalue, irq, none⟩] }
  | none => d

/-- A nest is over with a completion code: its record is written, and tried again while a line or a peer keeps the store (R284, R330, R372). -/
def nestOver (d : Dev) (nk : Nat) (n : Nest) (code : Nat) : Dev :=
  match agentPutAt d n.part n.put [] (n.pa + 192) 16 (code + 2 ^ 64 * n.released) with
  | .done d => nestGone d nk n
  | .busy d op =>
    let f := fun (x : Nest) => { x with put := op }
    { d with
      nests := d.nests.modify nk f
      savedNests := d.savedNests.map (fun e => if savedKey e.nest = nk then { e with nest := f e.nest } else e) }
  | .fault _ => d

/-- A nest completes when no row is held, none can enter and no point is outstanding (R355). -/
def completeNest (nk : Nat) (d : Dev) : Dev :=
  match d.nests.get? nk with
  | some n =>
    if n.rows.isEmpty && n.nextRow.isNone && n.points.isEmpty && (crewsOf d nk).isEmpty && overReady d n then nestOver d nk n 1 else d
  | none => d

/-- The rake's work on a nest after an event (R335): retirements, rows, releases, exits, completion. -/
def rakeRun (nk : Nat) (d : Dev) : Dev :=
  match d.nests.get? nk with
  | none => d
  | some n =>
    if n.ending || (d.part n.part).halted then d
    else
      let d := d.setNest nk (settleRows rowFuel n.retireAll)
      let d := if n.stopped then d else times (releaseOne nk) (crewsOf d nk).length d
      completeNest nk (exitIdle nk d)

/-! ### nest.launch, nest.grow, nest.idx (R331 to R334, R352 to R354) -/

/-- A launched nest takes a record slot (R332, R335). -/
def startNest (d : Dev) (p die va pa : Nat) (r : BitVec 2048) (descs : List Desc) (depth : Nat) (parent : Option (Nat × Nat))
    (launch : Option (Nat × Nat × W64 × Bool)) : Dev :=
  let rake := (rakeFor d die).getD die
  let slot := ((List.range 64).find? (fun i => (d.nests.get? (rake * 64 + i)).isNone)).getD 0
  let n : Nest := ⟨p, va, pa, r, descs, (List.range 4).map (fun j => recInt r (boundAt j + 4) 4), [], none, 0, depth, parent, launch,
    [], [], [], 0, 0, [], false, false, d.nextId, none⟩
  rakeRun (rake * 64 + slot) ({ d with nextId := d.nextId + 1 }.setNest (rake * 64 + slot) n)

/-- NEST_LAUNCH (R331, R332). -/
def nestLaunchWord (f a b : BitVec 6) : Dev → Nat → Warp → Dev :=
  checked [ckZero (b == 0#6)] (interlock [f.toNat, a.toNat] (fun d k w =>
    let va := w.s a.toNat
    match d.crewOf w, d.nestOf w with
    | some c, some n =>
      if va.toNat % 256 ≠ 0 then scalarTrap d k w 4 .align va []
      else if 10 ≤ n.depth then scalarTrap d k w 4 .nestDepth 0 []
      else if !fenceReady d k w true .v then stall d k w
      else withVa d k w va (fun v => withRead d k w 4 v 256 (fun x => withXlate d k w v .read 0 (fun pa l =>
        let r : BitVec 2048 := BitVec.ofNat 2048 x
        let wcnt := recField r 56 4 / 2 ^ 18 % 32
        let go := fun (y : Nat) =>
          let descs : List Desc := (codesOf 512 y wcnt).map (BitVec.ofNat 512)
          let st := launchStatus d c.id.part (w.cluster / 64) r descs l.w
          let d := done d k (w.setS f.toNat (BitVec.ofNat 64 st)) 4
          if st ≠ 0 then d
          else
            let lin := (c.point.map (·.linear)).getD 0
            let d := d.setNest c.id.nest { n with points := n.points.map (fun p =>
              if p.pt.linear = lin then { p with children := p.children + 1, launched := true } else p) }
            startNest d c.id.part (w.cluster / 64) v pa r descs (n.depth + 1) (some (c.id.nest, lin)) none
        if wcnt = 0 then go 0
        else withReadAny d k w (BitVec.ofNat 64 (recField r 32 8)) (64 * wcnt) go)))
    | _, _ => done d k w 4))

def execNestLaunch (d a b : BitVec 6) (s : State) : Host.Outcome State Fault Refusal := scalarWord s (nestLaunchWord d a b)

/-- The mark of a dimension (R354). -/
def Nest.mark (n : Nest) (b : Nat) : Int :=
  n.rows.foldl (fun m rw =>
    let v := n.hiSlope b rw.i
    if b = n.outer then max m (rw.lo + rw.issued - v) else max m (rw.i.getD b 0 + 1 - v)) (-2 ^ 31)

/-- NEST_GROW (R353). -/
def nestGrowWord (f a b : BitVec 6) : Dev → Nat → Warp → Dev :=
  checked [ckB (decide (b.toNat < 4))] (interlock [f.toNat, a.toNat] (fun d k w =>
    match d.crewOf w, d.nestOf w with
    | some c, some n =>
      let v := (w.s a.toNat).toInt
      if v < -2 ^ 31 ∨ 2 ^ 31 - 1 < v then illegal d k w (.illOpnd, 5)
      else if n.dims ≤ b.toNat then illegal d k w (.illOpnd, 6)
      else
        let m := n.mark b.toNat
        let ok := decide (m ≤ v)
        let st := BitVec.ofNat 64 ((if ok then 0 else 1) + 2 ^ 32 * (m % 2 ^ 32).toNat)
        let d := done d k (w.setS f.toNat st) 4
        if !ok then d
        else
          let n := { n with hc := n.hc.set b.toNat v }
          let n := if b.toNat = n.outer then { n with rows := n.rows.map (fun r => { r with hi := n.hi n.outer r.i }) } else n
          rakeRun c.id.nest (d.setNest c.id.nest n)
    | _, _ => done d k w 4))

def execNestGrow (d a b : BitVec 6) (s : State) : Host.Outcome State Fault Refusal := scalarWord s (nestGrowWord d a b)

/-- NEST_IDX (R352). -/
def nestIdxWord (f a b : BitVec 6) : Dev → Nat → Warp → Dev :=
  checked [ckZero (a == 0#6), ckB (decide (b.toNat < 4))] (interlock [f.toNat] (fun d k w =>
    match d.crewOf w, d.nestOf w with
    | some c, some n =>
      if n.dims ≤ b.toNat then illegal d k w (.illOpnd, 6)
      else done d k (w.setS f.toNat (BitVec.ofInt 64 (((c.point.map (·.idx)).getD []).getD b.toNat 0))) 4
    | _, _ => done d k w 4))

def execNestIdx (d a b : BitVec 6) (s : State) : Host.Outcome State Fault Refusal := scalarWord s (nestIdxWord d a b)

/-! ### pdone (R348, R349) -/

/-- Every warp of the crew has completed pdone: the point is finished, the crew idle (R349), or drained (R394). -/
def pointDone (ck : Nat) (d : Dev) : Dev :=
  match d.crews.get? ck with
  | none => d
  | some c =>
    match c.point with
    | none => d
    | some pt =>
      if !c.warps.all (fun wk => ((d.warps.get? wk).map (fun w => w.park == .point)).getD true) then d
      else
        let d := d.setCrew ck { c with point := none, save := if c.save = .none then .none else .drain }
        let d := { d with nests := d.nests.modify c.id.nest (fun n =>
          { n with points := n.points.map (fun p => if p.pt.linear = pt.linear then { p with finished := true, crew := none } else p) }) }
        rakeRun c.id.nest d

/-- The conditions of R26 and R348, batches and drains included (R292, R299). -/
def pdoneReady (d : Dev) (k : Nat) (w : Warp) : Bool :=
  lanesDrained w && w.batches.isEmpty && w.outG.isEmpty && w.outX.isEmpty && w.outA.isEmpty && w.outT.isEmpty && w.acks == 0 &&
    fenceReady d k w true .v

/-- PDONE. -/
def pdoneWord (f a b : BitVec 6) : Dev → Nat → Warp → Dev :=
  checked [ckZero (f == 0#6 && a == 0#6 && b == 0#6)] (fun d k w =>
    match closeOpen w with
    | none => stall d k w
    | some w1 =>
      let d := closeBatches (d.setWarp k w1) k
      let w1 := (d.warps.get? k).getD w1
      if pdoneReady d k w1 && w1.batchErr.isEmpty then pointDone w1.crewKey (d.setWarp k { w1 with park := .point, xs := [] })
      else stall d k w1)

def execPdone (d a b : BitVec 6) (s : State) : Host.Outcome State Fault Refusal := scalarWord s (pdoneWord d a b)

/-! ### Placement (R343 to R345, R359) -/

def freeWarpSlots (d : Dev) (c : Nat) : List Nat := (List.range 32).filter (fun i => (d.warps.get? (c * 32 + i)).isNone)

/-- Physical tiles of a cluster that no crew has. -/
def freeTiles (d : Dev) (c : Nat) : List Nat :=
  (List.range 16).filter (fun t => d.crews.all (fun e => e.2.cluster != c || e.2.tiles.all (fun m => m.2 != t)))

/-- Scratch allocations of a cluster, retained ones included (R406). -/
def scratchUsed (d : Dev) (c : Nat) : List (Nat × Nat) :=
  let held := d.crews.map (·.2) ++ (d.nests.map (·.2) ++ d.savedNests.map (·.nest)).flatMap (fun n => n.retained.map (·.2))
  (held.filter (fun x => x.cluster == c && x.ssize != 0)).map (fun x => (x.sbase, x.ssize))

/-- SBASE for a size (R359 step 4). -/
def placeScratch (d : Dev) (c size : Nat) : Option Nat :=
  let used := scratchUsed d c
  ((List.range 256).map (· * 4096)).find? (fun b => b + size ≤ 1048576 && used.all (fun u => b + size ≤ u.1 || u.1 + u.2 ≤ b))

/-- What a crew needs of a cluster (R344): granules of each warp, scratch bytes, declared tiles as a mask. -/
structure Fit where
  grans : List Nat
  ssize : Nat
  tiles : Nat
  deriving DecidableEq, Repr

/-- The first pipe for a crew's warps (R359 step 6). -/
def placePipe (d : Dev) (c : Nat) (grans : List Nat) : Option Nat :=
  let left := fun (f : Nat) => (List.range 4).map (fun p =>
    (spareGranules d c p, (grans.mapIdx (fun w g => if (f + w) % 4 = p then g else 0)).sum))
  let ok := fun (f : Nat) => (left f).all (fun e => e.2 ≤ e.1)
  let least := fun (f : Nat) => (left f).foldl (fun m e => Nat.min m (e.1 - e.2)) 48
  (List.range 4).foldl (fun b f => if !ok f then b else match b with
    | some g => if least g < least f then some f else b
    | none => some f) none

/-- A place for a crew: cluster, crew slot, warp slots, scratch base, first pipe, tile map. -/
structure Spot where
  cluster : Nat
  cslot : Nat
  slots : List Nat
  base : Nat
  first : Nat
  tiles : Tab Nat
  deriving DecidableEq, Repr

/-- The place of a crew on a cluster, if it can take it (R344, R359 steps 3 to 6). -/
def canTake (d : Dev) (n : Fit) (c : Nat) : Option Spot :=
  let slots := freeWarpSlots d c
  let decl := (List.range 16).filter (fun t => n.tiles.testBit t)
  let free := freeTiles d c
  if slots.length < n.grans.length ∨ free.length < decl.length then none
  else match (List.range 32).find? (fun i => (d.crews.get? (c * 32 + i)).isNone), placeScratch d c n.ssize, placePipe d c n.grans with
    | some i, some b, some f => some ⟨c, i, slots.take n.grans.length, b, f, List.zip decl free⟩
    | _, _, _ => none

/-- A warp as placement leaves it (R198). -/
def freshWarp (n : Nest) (c wslot pipe cslot wcrew now : Nat) : Warp :=
  { cluster := c, wslot := wslot, pipe := pipe, cslot := cslot, wcrew := wcrew, spc := BitVec.ofNat 64 n.sentry, sregs := [], q := 1,
    vregs := [], preds := [], wstat := 0, nmode := 0, lanes := 64, valloc := n.gran, queue := [], lword := 0, blocks := 0, drains := [],
    outG := [], outX := [], outA := [], outT := [], acks := 0, pendS := [], pendV := [], acquires := [], wph := [], lastBatch := 0,
    openOps := [], batches := [], batchErr := [], park := .point, lpark := .run, live := 0, bind := none, stop := none, xs := [], xl := [],
    rd := Reads.empty, rl := Reads.empty, install := none, collIn := 0, ready := now, rank := 0, lready := now }

/-- The clusters of a span of 16. -/
def spanClusters (s : Nat) : List Nat := (List.range 16).map (· + 16 * s)

/-- Among a span's clusters that can take the crew, the one with the most free warp slots, the lowest at a tie (R359 step 2). -/
def chooseSpot (d : Dev) (n : Fit) (s : Nat) : Option Spot :=
  (spanClusters s).foldl (fun b c => match canTake d n c, b with
    | some p, some x => if (freeWarpSlots d x.cluster).length < (freeWarpSlots d c).length then some p else b
    | some p, none => some p
    | none, _ => b) none

/-- The tiles of a place hold +0.0 (R273). -/
def clearTiles (d : Dev) (x : Spot) : Dev :=
  let c := d.cluster x.cluster
  d.setCluster x.cluster { c with tiles := c.tiles.filter (fun e => !x.tiles.any (fun m => m.2 == e.1 / 64)) }

/-- Puts a new crew at a place: registers, gates, windows, tiles (R344, R198). -/
def freshCrew (nk : Nat) (n : Nest) (cidx : Nat) (x : Spot) (d : Dev) : Dev :=
  let c := x.cluster
  let crew : Crew := {
    id := ⟨n.part, nk / 64, nk % 64, n.nextCrew + cidx⟩, cluster := c, cslot := x.cslot, cidx := cidx, gang := n.nextGang,
    warps := x.slots.map (· + c * 32),
    gates := (List.range 16).filterMap (fun g => if n.gdecl g = 0 then none else some (g, ⟨n.gdecl g, 0, 0⟩)),
    arrivals := [], wins := n.descs.mapIdx (fun i y => (i, Win.bound y)), sbase := x.base, ssize := n.ssize, tiles := x.tiles,
    token := 0, point := none, groups := [], save := .none, saveAt := 0, collArg := none }
  let d := clearTiles (d.setCrew (c * 32 + x.cslot) crew) x
  (x.slots.mapIdx (fun i w => (i, w))).foldl (fun d e =>
    d.setWarp (c * 32 + e.2) (freshWarp n c e.2 ((x.first + e.1) % 4) x.cslot e.1 d.clock)) d

/-- Puts the crews of a gang on one span, in CIDX order. -/
def placeAll (s : Nat) : List (Fit × (Spot → Dev → Dev)) → Dev → Option Dev
  | [], d => some d
  | (n, build) :: r, d => match chooseSpot d n s with
    | some x => placeAll s r (build x d)
    | none => none

def partSpans (d : Dev) (p : Nat) : List Nat := (List.range (2 ^ (d.part p).spanLog)).map (· + (d.part p).firstSpan)

def spanFree (d : Dev) (s : Nat) : Nat := (spanClusters s).foldl (fun t c => t + (freeWarpSlots d c).length) 0

/-- Places a gang on the span with the most free warp slots that can take it, the lowest at a tie (R359 step 1). -/
def placeOn (d : Dev) (p : Nat) (gang : List (Fit × (Spot → Dev → Dev))) : Option Dev :=
  ((partSpans d p).foldl (fun b s => match placeAll s gang d, b with
    | some d', some x => if spanFree d x.1 < spanFree d s then some (s, d') else b
    | some d', none => some (s, d')
    | none, _ => b) (none : Option (Nat × Dev))).map (·.2)

/-- Places a new gang of a nest. -/
def placeGang (d : Dev) (nk : Nat) (n : Nest) : Option Dev :=
  let need : Fit := ⟨List.replicate n.warpsPer n.gran, n.ssize, n.tilesDecl⟩
  (placeOn d n.part ((List.range n.gangSize).map (fun i => (need, freshCrew nk n i)))).map (fun d =>
    { d with nests := d.nests.modify nk (fun n => { n with nextCrew := n.nextCrew + n.gangSize, nextGang := n.nextGang + 1 }) })

/-- The nest has a point that it could release (R343). -/
def releasable (d : Dev) (nk : Nat) (n : Nest) : Bool :=
  !n.rerun.isEmpty || (n.candidate.isSome && outstanding d (nk / 64) < 4096)

/-- The nest waits for a gang (R343). -/
def wantsGang (d : Dev) (nk : Nat) (n : Nest) : Bool :=
  !n.ending && !n.stopped && !(d.part n.part).halted && releasable d nk n && (idleCrew d nk).isNone &&
    (n.crewMax == 0 || (crewsOf d nk).length + n.gangSize ≤ n.crewMax)

/-- Crews that leave when a gang of another nest needs their place (R351). -/
def evictable (d : Dev) (nk : Nat) (n : Nest) : List (Nat × Crew) :=
  d.crews.filter (fun e => e.2.id.part == n.part && e.2.id.nest != nk && e.2.idle && noFill e.2 &&
    (match d.nests.get? e.2.id.nest with
      | some m => !m.ending && leaveReady d [e.2] && !releasable d e.2.id.nest m
      | none => false))

def exitAll (l : List (Nat × Crew)) (d : Dev) : Dev := l.foldl (fun d e => if leaveReady d [e.2] then exitCrew d e.1 e.2 else d) d

/-- The gang fits once these crews have gone. -/
def fitsWithout (d : Dev) (nk : Nat) (n : Nest) (l : List (Nat × Crew)) : Bool := (placeGang (exitAll l d) nk n).isSome

/-- The shortest run of the list with which the gang fits. -/
def enough (d : Dev) (nk : Nat) (n : Nest) (l : List (Nat × Crew)) : Option (List (Nat × Crew)) :=
  ((List.range (l.length + 1)).find? (fun i => fitsWithout d nk n (l.take i))).map (fun i => l.take i)

/-- Only crews whose resources are needed exit (R351): those without which the gang would not fit (log 45). -/
def needed (d : Dev) (nk : Nat) (n : Nest) (l : List (Nat × Crew)) : List (Nat × Crew) :=
  l.foldl (fun keep e => let rest := keep.filter (fun x => x.1 != e.1); if fitsWithout d nk n rest then rest else keep) l

def tryPlace (d : Dev) (nk : Nat) (n : Nest) : Option Dev :=
  (enough d nk n (evictable d nk n)).bind (fun l => placeGang (exitAll (needed d nk n l) d) nk n)

/-- GANG_PLACEMENT (R343, R345): a waiting nest gets a gang, unless one of its partition that goes first can be placed. -/
def gangPlacementD (nk : Nat) (d : Dev) : Dev :=
  match d.nests.get? nk with
  | none => d
  | some n =>
    if !wantsGang d nk n then d
    else if d.nests.any (fun e => e.1 != nk && e.2.part == n.part && (n.prio < e.2.prio || (n.prio == e.2.prio && e.2.born < n.born)) &&
        wantsGang d e.1 e.2 && (tryPlace d e.1 e.2).isSome) then d
    else match tryPlace d nk n with
      | some d => rakeRun nk d
      | none => d

def execGangPlacement (nest : Nat) (s : State) : Host.Outcome State Fault Refusal := eventStep s (gangPlacementD nest)

/-! ### Ending a nest (R389) -/

/-- The counters of every warp are zero, accepted fills are complete, and operations that write tiles have finished (R395 step 3). -/
def crewQuiet (d : Dev) (ck : Nat) (c : Crew) : Bool :=
  c.warps.all (fun wk => match d.warps.get? wk with
    | some w => w.outG.isEmpty && w.outX.isEmpty && w.outA.isEmpty && w.outT.isEmpty && w.acks == 0 && w.install.isNone
    | none => true) && noFill c && leaveReady d [c] && d.mops.all (fun e => e.2.crew != ck || !e.2.started || !(d.cluster c.cluster).mq.contains e.1)

/-- Abandons a word parked for a replay: its lanes that faulted perform nothing (R389). -/
def abandonWarp (d : Dev) (wk : Nat) : Dev :=
  match d.warps.get? wk with
  | none => d
  | some w =>
    match w.lpark with
    | .replay _ id _ =>
      let d := (d.setWarp wk { w with lpark := .run }).modOp id (fun o => { o with left := 0 })
      completeOp d id
    | .window .. => d.setWarp wk { w with lpark := .run }
    | .fetch _ => d.setWarp wk { w with lpark := .run }
    | _ => d

/-- Takes the crew's operations that have not begun out of the matrix queue, with their references and holds (R389, R395). -/
def dropMops (d : Dev) (ck : Nat) (c : Crew) : Dev :=
  (d.mops.filter (fun e => e.2.crew == ck && !e.2.started && (d.cluster c.cluster).mq.contains e.1)).foldl (fun d e =>
    let x := d.cluster c.cluster
    let d := d.setCluster c.cluster { x with
      mq := x.mq.filter (· != e.1)
      holds := x.holds.map (fun h => (h.1, { h.2 with refs := h.2.refs.filter (· != e.1) })) }
    let d := e.2.holds.foldl (fun d n => releaseHold d ck n) d
    { d with mops := d.mops.erase e.1 }) d

/-- Copy jobs of the crew that wait for a fault record are abandoned (R389). -/
def dropStuckJobs (d : Dev) (ck : Nat) : Dev :=
  { d with engines := d.engines.map (fun e => (e.1, { e.2 with jobs := e.2.jobs.filter (fun j => !(j.crew == ck && !j.fseqs.isEmpty)) })) }

/-- Saved nests below a nest end with it, the deepest first (R389, R407). -/
def endSaved : Nat → Nat → Dev → Dev
  | 0, _, d => d
  | fuel + 1, key, d =>
    (d.savedNests.filter (fun e => (e.nest.parent.map (·.1)) == some key)).foldl (fun d e =>
      let d := endSaved fuel (savedKey e.nest) d
      if !overReady d e.nest || d.savedNests.any (fun x => (x.nest.parent.map (·.1)) == some (savedKey e.nest)) then d
      else nestOver d (savedKey e.nest) e.nest 2) d

/-- One step of a nest's ending: work is abandoned, quiet crews exit, and with the last the nest is over with code 2. -/
def endStep (nk : Nat) (n : Nest) (d : Dev) : Dev :=
  let d := (crewsOf d nk).foldl (fun d e => dropStuckJobs (dropMops (e.2.warps.foldl abandonWarp d) e.1 e.2) e.1) d
  let d := (crewsOf d nk).foldl (fun d e => match d.crews.get? e.1 with
    | some c => if crewQuiet d e.1 c then exitCrew { d with mops := d.mops.filter (fun m => m.2.crew != e.1) } e.1 c else d
    | none => d) d
  let d := endSaved 10 nk d
  if (crewsOf d nk).isEmpty && overReady d n && d.nests.all (fun e => (e.2.parent.map (·.1)) != some nk) &&
      d.savedNests.all (fun e => (e.nest.parent.map (·.1)) != some nk) then
    nestOver d nk n 2
  else d

/-! ### Retirement (R340, R349) -/

/-- POINT_RETIRE (R340, R349, R389): a finished point without children retires; the rake goes on with the nest, or with its ending. -/
def pointRetireD (nk linear : Nat) (d : Dev) : Dev :=
  match d.nests.get? nk with
  | none => d
  | some n =>
    if n.ending then endStep nk n d
    else match n.points.find? (fun p => p.pt.linear == linear && p.retires) with
      | none => rakeRun nk d
      | some p =>
        rakeRun nk (d.setNest nk (n.retire p))

def execPointRetire (nest point : Nat) (s : State) : Host.Outcome State Fault Refusal := eventStep s (pointRetireD nest point)

end Sys2Proof.Machine
end

