-- ==== Sys2Proof/Machine/Causeway.lean ====
section
/-!
DEFINITION. The causeway (R408 to R415, R442): ports, messages, requests of peers, routes; and collectives (R416 to R423): coll.start
and the steps COLL_STEP, COLL_COMPLETE, COLL_ABORT and COLL_READY. A message fills one flit (log 25).
-/
namespace Sys2Proof.Machine

/-! ### Ports -/

/-- CWSTAT (R442). -/
def Port.cwstat (x : Port) : W64 := BitVec.ofNat 64 (x.state % 4 + x.preset % 16 * 4 + x.refused % 2 ^ 16 * 2 ^ 16 + x.lost % 2 ^ 16 * 2 ^ 32)

/-- A refused or lost write is counted and the partition's error vector raised (R414). -/
def countLost (d : Dev) (port part : Nat) : Dev := (d.setPort port { d.port port with lost := (d.port port).lost + 1 }).raise (4 * part + 1)

/-- A write of a collective waits for the answer with this tag about this line on this port. -/
def asksPeer (port tag line : Nat) (e : Nat × Nat × Nat) : Bool := e.1 == tag && e.2.1 % 2 ^ 34 == line && e.2.2 == port

/-- The answer to a write of a collective (R419), in progress or ended. -/
def collAck (d : Dev) (port tag line : Nat) : Dev :=
  { d with
    colls := d.colls.map (fun c => { c with pending := c.pending.filter (fun e => !asksPeer port tag line e) })
    lateAcks := d.lateAcks.filter (fun e => !asksPeer port tag line e.2) }

/-- The partition of the collective whose write has this tag. -/
def collPart (d : Dev) (port tag line : Nat) : Option Nat :=
  match d.colls.find? (fun c => c.pending.any (asksPeer port tag line)) with
  | some c => some c.part
  | none => (d.lateAcks.find? (fun e => asksPeer port tag line e.2)).map (·.1)

/-- The operation and the request that an answer is for: its tag, its line, and the port that carried the request (R412). -/
def farSub (d : Dev) (port op line : Nat) (load : Bool) : Option (Nat × Nat) :=
  let q := (op / 2 ^ 46, op % 2 ^ 46)
  match subOf d q with
  | some (_, u) =>
    if u.version = port ∧ u.line % 2 ^ 34 = line ∧ isPeer (u.line * 64) ∧
        (if load then u.st = .far ∧ u.act = .load else u.act ≠ .load ∧ ((u.st = .performed ∧ u.status = 0) ∨ u.st = .far)) then some q
    else none
  | none => none

/-- A write is acknowledged by its far end (R315, R410): at once, or with the relay's acknowledgement that is still on its way. -/
def peerAcked (d : Dev) (id key : Nat) : Dev :=
  match subOf d (id, key) with
  | some (o, u) =>
    if o.kind = .agent then { d with ops := d.ops.erase id }
    else if u.st = .performed then modSub d id key (fun u => { u with status := 2 }) else farDone id key d
  | none => d

/-- A remote request ends without its effect (R414): a load's data are 0 and in error, a write's acknowledgement falls and is counted
lost, a routine returns the status. -/
def failFar (d : Dev) (port id key status : Nat) : Dev :=
  match subOf d (id, key) with
  | none => d
  | some (o, u) =>
    match u.act with
    | .load => if u.st = .far then performed d u.pan id key (fun u => { u with data := 0, poison := 15 }) else d
    | .routine .. => if u.st = .far then performed d u.pan id key (fun u => { u with status := status }) else d
    | _ => countLost (peerAcked d id key) port o.part

/-- Acts on a message from the far end (R408, R412, R414); requests and the messages of collectives wait in the inbox. -/
def deliverMsg (d : Dev) (port : Nat) (m : PortMsg) : Dev :=
  match m with
  | .loadReply op line data poison =>
    match farSub d port op line true with
    | some q => performed d (((subOf d q).map (·.2.pan)).getD noPan) q.1 q.2 (fun u => { u with data := data, poison := poison })
    | none => d
  | .writeAck op line =>
    let d := collAck d port (2 * op) line
    match farSub d port op line false with
    | some q => peerAcked d q.1 q.2
    | none => d
  | .routineReply op lane status reply =>
    match subOf d (op, lane) with
    | some (_, u) =>
      if u.st = .far ∧ u.version = port ∧ u.act.isRoutine then performed d u.pan op lane (fun u => { u with status := status, reply := reply }) else d
    | none => d
  | .refused tag line =>
    if tag % 2 = 1 then
      match subOf d (tag / 2 / 64, tag / 2 % 64) with
      | some (_, u) => if u.version = port then failFar d port (tag / 2 / 64) (tag / 2 % 64) 7 else d
      | none => d
    else
      match collPart d port tag line with
      | some p => countLost (collAck d port tag line) port p
      | none =>
        match (farSub d port (tag / 2) line true).or (farSub d port (tag / 2) line false) with
        | some q => failFar d port q.1 q.2 7
        | none => d
  | _ => d.setPort port { d.port port with inbox := (d.port port).inbox ++ [m] }

/-- FLIT_RECEIVE (R408, R409): a good flit is delivered in sequence order, and acknowledged at once (log 25); another is refused. The port
returns either to the far end, with the number acknowledged, or with the number from which it asks for the flits again. -/
def flitReceiveD (port : Nat) (f : Flit) (d : Dev) : Dev :=
  let x := d.port port
  if x.state ≠ 2 ∨ 8 ≤ port then d
  else if !f.crcOk || f.seq != x.recvSeq then d.setPort port { x with refused := x.refused + 1, back := some (x.recvSeq, true) }
  else deliverMsg (d.setPort port { x with recvSeq := (x.recvSeq + 1) % 65536, back := some (x.recvSeq, false) }) port f.msg

def execFlitReceive (port : Nat) (flit : Flit) (s : State) : Host.Outcome State Fault Refusal := eventStep s (flitReceiveD port flit)

/-- Messages kept back move into a retry buffer that has room again, in order. -/
def drainOutbox (port : Nat) : List (Nat × PortMsg) → Dev → Dev
  | [], d => d
  | (p, m) :: r, d => if p = port then drainOutbox port r (sendFlit d p m) else drainOutbox port r { d with outbox := d.outbox ++ [(p, m)] }

/-- What a port that goes DOWN takes with it (R411, R414). -/
def portLost (port : Nat) (d : Dev) : Dev :=
  let x := d.port port
  let d := d.setPort port { x with state := 0, retry := [], resends := 0 }
  let d := { d with outbox := d.outbox.filter (fun m => m.1 != port) }
  let d := d.ops.foldl (fun d e => e.2.subs.foldl (fun d u =>
    if isPeer (u.2.line * 64) && u.2.version == port && u.2.status == 0 &&
        (u.2.st == .far || (u.2.st == .performed && !(u.2.act == .load) && !u.2.act.isRoutine))
    then failFar d port e.1 u.1 8 else d) d) d
  let owed := d.colls.flatMap (fun c => c.pending.map (fun e => (c.part, e))) ++ d.lateAcks
  let d := (owed.filter (fun e => e.2.2.2 == port)).foldl (fun d e => countLost d port e.1) d
  { d with
    colls := d.colls.map (fun c => { c with pending := c.pending.filter (fun e => e.2.2 != port) })
    lateAcks := d.lateAcks.filter (fun e => e.2.2.2 != port) }

/-- PORT_DOWN (R411, R442): the receiver loses lock, or training fails; the device vector is raised (R429). -/
def portDownD (port : Nat) (d : Dev) : Dev := if (d.port port).state = 0 then d else (portLost port d).raise 64

/-- FLIT_ACK (R409, R411): a cumulative acknowledgement frees flits; a refusal resends from the retry buffer, and after eight failed
resends of one flit the port goes DOWN. -/
def flitAckD (port seq : Nat) (refused : Bool) (d : Dev) : Dev :=
  let x := d.port port
  if x.state ≠ 2 ∨ !x.retry.any (fun e => e.1 == seq) then d
  else if refused then
    let n := if x.resendOf = seq then x.resends else 0
    if 8 ≤ n then portDownD port d else d.setPort port { x with resends := n + 1, resendOf := seq }
  else
    let d := d.setPort port { x with retry := (x.retry.dropWhile (fun e => e.1 != seq)).drop 1, resends := 0 }
    drainOutbox port d.outbox { d with outbox := [] }

def execFlitAck (port seq : Nat) (refused : Bool) (s : State) : Host.Outcome State Fault Refusal := eventStep s (flitAckD port seq refused)

/-- The partition whose window grants a sender access to a line (R413, R426). -/
def inboundPart (d : Dev) (stamp line : Nat) : Option Nat :=
  (d.parts.find? (fun e => e.2.enabled && e.2.pwin.any (fun w => pwinV w.2 && bit w.2 1 && (bit w.2 2 || bits w.2 12 3 == stamp) &&
    pwinBase w.2 ≤ line * 64 && line * 64 + 64 ≤ pwinBase w.2 + pwinSize w.2))).map (·.1)

def isRequestMsg : PortMsg → Bool
  | .request .. => true
  | _ => false

def peerAct : PeerReq → Act
  | .load => .load
  | .store wr => .store wr
  | .routine id word a0 a1 a2 a3 => .routine id word a0 a1 a2 a3

/-- CAUSEWAY_REQUEST (R412, R413): the oldest request of a port is accepted and goes to its home bank, or is refused. -/
def causewayRequestD (port : Nat) (d : Dev) : Dev :=
  let x := d.port port
  match (if port < 8 then x.inbox.find? isRequestMsg else none) with
  | some (PortMsg.request stamp tag line what) =>
    let d1 := d.setPort port { x with inbox := x.inbox.erase (.request stamp tag line what) }
    match (if stamp = 0x3FF ∨ !isHbm (line * 64) then none else inboundPart d stamp line) with
    | none => sendFlit d1 port (.refused tag line)
    | some p =>
      let id := d.nextId
      let key := if tag % 2 = 1 then tag / 2 % 64 else line
      let o : MemOp := ⟨2 ^ 40, p, 1024 + port, .engine, .g, .peer port tag, 0, 0, 0, 0, 0, 0, [],
        [(key, { Sub.new line (peerAct what) with order := d.replies })], [], [], [], 0, 0, [], []⟩
      (enqueue { d1 with nextId := id + 1, replies := d.replies + 1, ops := d1.ops.set id o } (panOf d p line) line (id, key)).getD d
  | _ => d

def execCausewayRequest (port : Nat) (s : State) : Host.Outcome State Fault Refusal := eventStep s (causewayRequestD port)

/-- CWCTL_RETRAIN (R442) of one of the eight ports (R3): a write of 1 to bit 0 retrains a DOWN port; routes stay. -/
def cwctlRetrainD (port : Nat) (d : Dev) : Dev :=
  let x := d.port port
  if 8 ≤ port then d
  else if x.state = 0 then d.setPort port { x with cwctl := x.cwctl ||| 1#64, state := 1, since := d.clock }
  else d.setPort port { x with cwctl := x.cwctl ||| 1#64 }

/-- The links hart does not run in minimal mode (R438). -/
def execCwctlRetrain (port : Nat) (s : State) : Host.Outcome State Fault Refusal :=
  eventStep s (if bit s.boot.bootstat 0 then id else cwctlRetrainD port)

/-- The limits of R442's five steps together, in core clocks. -/
def portLimit : Nat := 37 * 600000

/-- CAUSEWAY_PORT_UP (R442): a port whose bring-up has taken longer than its steps may is left DOWN; another goes UP, with its sequence
numbers at 0 and the preset that training chose (log 25). -/
def causewayPortUpD (port : Nat) (d : Dev) : Dev :=
  let x := d.port port
  if x.state ≠ 1 ∨ 8 ≤ port then d
  else if x.since + portLimit < d.clock then portDownD port d
  else d.setPort port { x with
    state := 2, preset := (Config.preset d.free).toNat % 11, sendSeq := 0, recvSeq := 0, retry := [], resends := 0, back := none }

/-- CWRQ_GO (R412): the links hart sets a route, or refuses with REJ. -/
def cwrqGoD (v : W64) (d : Dev) : Dev :=
  let peer := bits v 9 0
  if !bit v 63 then { d with cwrq := (v &&& 0x3FFFFFFFFFFFFFFF#64) ||| (d.cwrq &&& 0x4000000000000000#64) }
  else if peer = 0x3FF ∨ peer = d.cwself.toNat ∨ bits v 61 14 ≠ 0 ∨ d.cwself = 0x3FF then { d with cwrq := d.cwrq ||| 0x4000000000000000#64 }
  else { d with
    cwroute := d.cwroute.set peer (BitVec.ofNat 64 (bits v 12 10 + if bit v 13 then 8 else 0)), cwrq := v &&& 0x3FFFFFFFFFFFFFFF#64 }

/-- The links hart does not run in minimal mode (R438). -/
def execCwrqGo (v : W64) (s : State) : Host.Outcome State Fault Refusal :=
  eventStep s (if bit s.boot.bootstat 0 then id else cwrqGoD v)

/-! ### Collectives: the descriptor (R416) -/

def clRtab (x : Desc) : Nat := dField x 0 8
def clStage (x : Desc) : Nat := dField x 8 8
def clSize (x : Desc) : Nat := dField x 16 4
def clId (x : Desc) : Nat := dField x 20 2
def clN (x : Desc) : Nat := dField x 22 1
def clRank (x : Desc) : Nat := dField x 23 1
def clKind (x : Desc) : Nat := dField x 24 1
def clSrck (x : Desc) : Nat := dField x 25 1
def clSrc (x : Desc) : Nat := dField x 26 1
def clDst (x : Desc) : Nat := dField x 27 1
def clWarp (x : Desc) : Nat := dField x 28 1

def clChunk (x : Desc) : Nat := if clKind x = 1 then clSize x / clN x else clSize x
/-- Steps of the collective (R419). -/
def clSteps (x : Desc) : Nat := if clKind x = 1 then 2 * (clN x - 1) else clN x - 1

/-- Entry i of the rank table: PEER, STAGEPA, and whether its reserved bits are 0 and its address a multiple of 64. -/
def rankEntry (t i : Nat) : Nat × Nat × Bool :=
  let e := t / 256 ^ (16 * i)
  (e % 1024, e / 2 ^ 64 % 2 ^ 64, e % 2 ^ 64 / 1024 == 0 && e / 2 ^ 64 % 2 ^ 64 < 2 ^ 40 && e / 2 ^ 64 % 64 == 0)

/-- A bound window of a size. -/
def winSized (c : Crew) (n size : Nat) : Bool := (c.win n).valid && dSize (c.win n).desc == size

/-- The checks of R417 on the descriptor alone, with the alignments of R416. -/
def clDescOk (x : Desc) (c : Crew) : Bool :=
  dField x 29 35 == 0 && 2 ≤ clN x && clN x ≤ 16 && clRank x < clN x && clKind x ≤ 1 && clSrck x ≤ 1 && clSrc x < 16 && clDst x < 16 &&
    clRtab x % 64 == 0 && clStage x % 64 == 0 &&
    (if clSrck x = 1 then clSize x == 16384 && (c.tiles.get? (clSrc x)).isSome else winSized c (clSrc x) (clSize x)) &&
    (clKind x == 0 || clSize x % (64 * clN x) == 0) &&
    winSized c (clDst x) (if clKind x = 1 then clSize x else clN x * clSize x)

def clRanksOk (x : Desc) (t : Nat) : Bool :=
  (List.range (clN x)).all (fun i => (rankEntry t i).2.2 && ((rankEntry t i).1 == 0x3FF) == (i == clRank x))

/-! ### A crew's collective (R417, R418) -/

/-- The crew has a collective in progress. -/
def inCollective (d : Dev) (c : Crew) : Bool := d.colls.any (fun e => e.id == c.id)

/-- The collective of a crew is past the sending of its first step (R410, R417). -/
def firstSent (d : Dev) (c : Crew) : Bool :=
  match d.colls.find? (fun e => e.id == c.id) with
  | some e => (e.step != 0 || e.phase != 0) && d.outbox.all (fun m => match m.2 with
      | .request _ tag line _ => !e.pending.any (asksPeer m.1 tag line)
      | _ => true)
  | none => true

/-- The record at a place of the list. -/
def Dev.modColl (d : Dev) (i : Nat) (f : Coll → Coll) : Dev := { d with colls := d.colls.modify i f }

/-- The resident crew of a collective. -/
def collCrew (d : Dev) (e : Coll) : Option Crew := (d.crews.get? e.crew).bind (fun c => if c.id = e.id then some c else none)

/-- Windows that the collective holds (R418). -/
def collWins (x : Desc) : List Nat := if clSrck x = 1 ∨ clSrc x = clDst x then [clDst x] else [clSrc x, clDst x]

/-- A fault of the collective is its communication warp's (R417). -/
def collTrap (d : Dev) (e : Coll) (c : Crew) (cls : Cls) (aux : W64) : Dev :=
  let wk := c.warps.getD e.cwarp 0
  match d.warps.get? wk with
  | some w => takeTrap d wk w .engine cls e.waddr 0 0 aux []
  | none => d

/-- Takes the hold of one window, touching it first when it is absent (R183, R418). -/
def collHold (i : Nat) (c : Crew) (d : Dev) (n : Nat) : Dev :=
  match d.colls[i]? with
  | none => d
  | some e =>
    if e.held.contains n then d
    else
      let x := d.win e.crew n
      let want := fun (d : Dev) => d.modColl i (fun e => if e.wants.contains n then e else { e with wants := e.wants ++ [n] })
      match x.state with
      | .present => (d.setWin e.crew n { x with holds := x.holds + 1 }).modColl i (fun e => { e with held := e.held ++ [n] })
      | _ =>
        match touchWin d e.crew n (c.warps.getD e.cwarp 0) e.waddr 0 d.nextId with
        | (d, none) | (d, some .wait) => want d
        | (d, some (.record q)) => d.modColl i (fun e => { e with fseqs := e.fseqs ++ [q] })
        | (d, some (.groupErr g)) => collTrap d e c .groupErr (BitVec.ofNat 64 g)
        | (d, some (.prot f)) => collTrap d e c .prot (BitVec.ofNat 64 f.num)

/-! ### The start (R417, R418) -/

/-- The communication warp starts the collective: the record at the pan, the holds of its windows, and a tile source's place in the matrix
queue (R418, R421). Warps that still wait at their coll.start go on from it. -/
def startColl (x : Desc) (t gate : Nat) (c : Crew) (d : Dev) (k : Nat) (w : Warp) : Dev :=
  if clSrck x = 1 ∧ 64 ≤ (d.cluster w.cluster).mq.length then stall d k w
  else
    let id := d.nextId
    let d := if clSrck x = 1 then pushMop d w.cluster ⟨k, w.crewKey, w.spc.toNat, .coll, [clSrc x], 0, false, [], [], [], [], [], 0, none⟩ else d
    let e : Coll := ⟨w.crewKey, c.id, c.id.part, w.wcrew, w.spc.toNat, gate, x,
      (List.range (clN x)).map (fun i => ((rankEntry t i).1, (rankEntry t i).2.1)), 0, 0, 0, false, [], 0, [], [],
      [], [], if clSrck x = 1 then some id else none⟩
    let c := { c with collArg := none }
    let d := c.warps.foldl (fun d wk => d.modWarp wk (fun v => { v with collIn := if v.collIn = 2 then 0 else v.collIn })) (d.setCrew w.crewKey c)
    let d := stall { d with colls := d.colls ++ [e] } k { w with collIn := 1 }
    (collWins x).foldl (collHold (d.colls.length - 1) c) d

/-- WCREW of the communication warp, as the descriptor has it; every warp finds it without a load, and none while the descriptor has no
translation (R417, log 115). -/
def commWarp (d : Dev) (w : Warp) (a : W64) : Option Nat :=
  match aform a, xlateNow d (d.cluster w.cluster).tlb (d.partOf w) a.toNat .read with
  | .va _, .hit pa _ => some (clWarp (BitVec.ofNat 512 (devReadN d pa 64)))
  | _, _ => none

/-- A recorded warp: the communication warp, once every warp of the crew has recorded, reads and starts; it also takes the traps of a
descriptor without a translation, in warp 0's place (log 115). The reads count on no path (R417). -/
def collGo (a gate : Nat) (c : Crew) (d : Dev) (k : Nat) (w : Warp) : Dev :=
  let w := { w with collIn := 1 }
  match commWarp d w (w.s a) with
  | some n =>
    if n ≠ w.wcrew then done d k { w with collIn := 2 } 4 else read d w
  | none => if w.wcrew ≠ 0 then stall d k w else read d w
where
  read (d : Dev) (w : Warp) : Dev :=
    if !c.warps.all (fun wk => wk == k || ((d.warps.get? wk).map (fun v => v.collIn != 0)).getD true) then stall d k w
    else withVa d k w (w.s a) (fun v => withLoad false false d k w 4 v 64 (fun y =>
      let x : Desc := BitVec.ofNat 512 y
      if w.wcrew ≠ clWarp x then stall d k w
      else if !clDescOk x c then illegal d k w (.illOpnd, 5)
      else withLoadAny false d k w (BitVec.ofNat 64 (clRtab x)) (16 * clN x) (fun t =>
        if !clRanksOk x t then illegal d k w (.illOpnd, 5) else startColl x t gate c d k w)))

/-- The collective that a recorded warp waited for has started, and the sends of its first step are complete, where it is the communication
warp (R410, R417). -/
def collGoesOn (d : Dev) (c : Crew) (w : Warp) : Bool :=
  match d.colls.find? (fun e => e.id == c.id) with
  | some e => e.cwarp != w.wcrew || firstSent d c
  | none => true

/-- coll.start after its alignment and gate checks: the word waits while the crew has a collective in progress, or a warp of it is still at the
start of one; then it records, or traps where its record differs from the first warp's. -/
def collRecord (a gate : Nat) (c : Crew) (d : Dev) (k : Nat) (w : Warp) : Dev :=
  let late := c.warps.any (fun wk => ((d.warps.get? wk).map (fun v => v.collIn != 0)).getD false)
  match c.collArg, w.collIn with
  | none, 1 => if collGoesOn d c w then done d k { w with collIn := 0 } 4 else stall d k w
  | none, _ =>
    if inCollective d c || late || !fenceReady d k w true .c then stall d k w
    else
      let c := { c with collArg := some (w.s a, gate) }
      collGo a gate c (d.setCrew w.crewKey c) k w
  | some _, 1 => collGo a gate c d k w
  | some _, 2 => stall d k w
  | some r, _ =>
    if !fenceReady d k w true .c then stall d k w
    else if r.1 ≠ w.s a then illegal d k w (.illOpnd, 5)
    else if r.2 ≠ gate then illegal d k w (.illOpnd, 6)
    else collGo a gate c d k w

/-- COLL_START (R416, R417). -/
def collStartWord (f a b : BitVec 6) : Dev → Nat → Warp → Dev :=
  checked [ckZero (f == 0#6), ckB (decide (b.toNat < 16))] (interlock [a.toNat] (fun d k w =>
    if (w.s a.toNat).toNat % 64 ≠ 0 then scalarTrap d k w 4 .align (w.s a.toNat) []
    else if !gateDeclared d w b.toNat then illegal d k w (.illOpnd, 6)
    else match d.crewOf w with
      | none => done d k w 4
      | some c => collRecord a.toNat b.toNat c d k w))

def execCollStart (d a b : BitVec 6) (s : State) : Host.Outcome State Fault Refusal := scalarWord s (collStartWord d a b)

/-! ### Sending and receiving (R419) -/

/-- 64 bytes of the crew's window n at an offset, and whether a bank word is poisoned. -/
def winBytes (d : Dev) (c : Crew) (n off : Nat) : Nat × Bool :=
  let a := c.sbase + dSoff (c.win n).desc + off
  let cl := d.cluster c.cluster
  (memReadN cl.scratch a 64, (List.range 4).any (fun i => cl.spoison.contains (a / 16 + i)))

/-- 64 bytes of a tile, rows of 64 words in order. -/
def tileBytes (d : Dev) (c : Crew) (t off : Nat) : Nat :=
  (((d.cluster c.cluster).tileRow (c.tiles.getD t 0) (off / 256)).toNat / 256 ^ (off % 256)) % 256 ^ 64

/-- 64 bytes of the source. -/
def collSrc (d : Dev) (c : Crew) (x : Desc) (off : Nat) : Nat × Bool :=
  if clSrck x = 1 then (tileBytes d c (clSrc x) off, false) else winBytes d c (clSrc x) off

/-- Writes 64 bytes of the destination window. -/
def collPut (d : Dev) (c : Crew) (x : Desc) (off : Nat) (v : Nat × Bool) : Dev :=
  let a := c.sbase + dSoff (c.win (clDst x)).desc + off
  let cl := cleanScratch (scratchWrite (d.cluster c.cluster) a 64 v.1) a 64
  d.setCluster c.cluster { cl with spoison := if v.2 then (List.range 4).map (· + a / 16) ++ cl.spoison else cl.spoison }

/-- Chunk that rank r sends in step s, and the chunk that it receives (R419). -/
def sendChunk (x : Desc) (s : Nat) : Nat :=
  let n := clN x
  let r := clRank x
  if clKind x = 1 ∧ n - 1 ≤ s then (r + 1 + n - (s - (n - 1))) % n else (r + n - s % n) % n
def recvChunk (x : Desc) (s : Nat) : Nat :=
  let n := clN x
  let r := clRank x
  if clKind x = 1 ∧ n - 1 ≤ s then (r + n - (s - (n - 1))) % n else (r + 2 * n - 1 - s % n) % n

/-- FLAG (R419). -/
def collFlag (e : Coll) (s : Nat) : Nat := clId e.desc * 2 ^ 16 + e.attempt * 2 ^ 8 + s

/-- A write of the collective to a line of the next rank's memory, which the engine owns until the acknowledgement (R189); without a link it
is not sent (R414). -/
def collSend (i : Nat) (e : Coll) (off : Nat) (bytes : List (Nat × Byte × Byte)) (d : Dev) : Dev :=
  let (peer, stage) := e.ranks.getD ((clRank e.desc + 1) % clN e.desc) (0x3FF, 0)
  match portFor d (2 ^ 50 + peer * 2 ^ 40) with
  | none => d
  | some port =>
    let id := d.nextId
    let line := (stage + off) / 64 % 2 ^ 34
    (sendFlit { d with nextId := id + 1 } port (.request d.cwself.toNat (2 * id) line (.store bytes))).modColl i
      (fun e => { e with pending := e.pending ++ [(2 * id, (2 ^ 50 + peer * 2 ^ 40) / 64 + line, port)] })

/-- Sends the chunk of a step. -/
def collSendChunk (i : Nat) (e : Coll) (c : Crew) (d : Dev) : Dev :=
  let x := e.desc
  let n := clChunk x
  let src := fun (o : Nat) => if e.step = 0 then collSrc d c x (if clKind x = 1 then sendChunk x 0 * n + o else o)
    else winBytes d c (clDst x) (sendChunk x e.step * n + o)
  (List.range (n / 64)).foldl (fun d j => collSend i e (128 + e.step * n + 64 * j) (storeBytes 0 (src (64 * j)).1 64) d) d

/-- All-gather: the rank's own chunk goes into the destination first (R419). -/
def collCopyOwn (e : Coll) (c : Crew) (d : Dev) : Dev :=
  let x := e.desc
  (List.range (clSize x / 64)).foldl (fun d j => collPut d c x (clRank x * clSize x + 64 * j) (collSrc d c x (64 * j))) d

/-- The FP32 sums of sixteen words (R419). -/
def sumWords (u v : Nat) : Nat × W64 :=
  (List.zip (codesOf 32 u 16) (codesOf 32 v 16)).foldr (fun p a =>
    let s := addNum false (decode32 (BitVec.ofNat 32 p.1)) (decode32 (BitVec.ofNat 32 p.2))
    let r := f32Of s.1 s.2
    (r.1.toNat + 2 ^ 32 * a.1, r.2 ||| a.2)) (0, 0)

/-- The engine of a collective reads its staging area (R76, R418). -/
def stageRead (d : Dev) (e : Coll) (c : Crew) (off n : Nat) : AgentRead :=
  agentRead d (c.cluster / 64) (d.engine (engineOf c.cluster)).tlb (.coll e.crew) e.part (BitVec.ofNat 64 (clStage e.desc + off)) n

/-- The pans' tags for such a read (R68, R102). -/
def stageFetch (d : Dev) (e : Coll) (c : Crew) (off n : Nat) : Dev :=
  agentFetch d (c.cluster / 64) (d.engine (engineOf c.cluster)).tlb (.coll e.crew) e.part (BitVec.ofNat 64 (clStage e.desc + off)) n

/-- Reads the own slot of a step and reduces or gathers it into the destination, line by line; or what stopped it. -/
def collRecv (i : Nat) (e : Coll) (c : Crew) : List Nat → Dev → Dev ⊕ AgentRead
  | [], d => .inl d
  | j :: r, d =>
    let x := e.desc
    let n := clChunk x
    match stageRead d e c (128 + e.step * n + 64 * j) 64 with
    | .ok v bad =>
      let d := stageFetch d e c (128 + e.step * n + 64 * j) 64
      let off := recvChunk x e.step * n + 64 * j
      if clKind x = 1 ∧ e.step < clN x - 1 then
        let own := collSrc d c x off
        let (s, fl) := sumWords v own.1
        collRecv i e c r ((collPut d c x off (s, bad || own.2)).modColl i (fun e => { e with flags := e.flags ||| (fl &&& (fNV ||| fOF ||| fNX)) }))
      else collRecv i e c r (collPut d c x off (v, bad))
    | x => .inr x

/-- A read of the staging area that stops: at a translation to come, or at a fault. -/
def collFault (i : Nat) (e : Coll) (c : Crew) (r : AgentRead) (d : Dev) : Dev :=
  match r with
  | .ok .. => d
  | .wait => d
  | .miss va => addMiss d (c.cluster / 64) e.part va (.coll e.crew)
  | .fault .notMapped va =>
    let wslot := ((d.warps.get? (c.warps.getD e.cwarp 0)).map (·.wslot)).getD 0
    let (d, q) := addFault (dropAnswers d (c.cluster / 64) (.coll e.crew)) e.part (va / 65536 * 65536) 0 0 .notMapped 0 c.cluster wslot
    d.modColl i (fun e => { e with fseqs := [q] })
  | .fault f _ => collTrap d e c .prot (BitVec.ofNat 64 f.num)

/-- A source tile's turn has come in the matrix queue (R288, R418). -/
def collTurn (d : Dev) (e : Coll) : Bool :=
  match e.tileOp with
  | some id => match d.mops.get? id with
    | some o => tileTurn d (o.crew / 32) id o
    | none => true
  | none => true

/-- Sends a message to every other rank (R422, R423). -/
def tellRanks (e : Coll) (m : PortMsg) (d : Dev) : Dev :=
  e.ranks.foldl (fun d r => match portFor d (2 ^ 50 + r.1 * 2 ^ 40) with
    | some port => if r.1 = 0x3FF then d else sendFlit d port m
    | none => d) d

/-- The record of a collective whose crew is saved (R422), once every acknowledgement of the attempt has come. -/
def collAborted (i : Nat) (e : Coll) (d : Dev) : Dev :=
  (tellRanks e (.abort (clId e.desc) e.attempt) d).modColl i (fun e =>
    { e with attempt := (e.attempt + 1) % 256, step := 0, phase := 0, ready := [], flags := 0 })

/-- COLL_STEP (R418, R419): holds are taken and a chunk sent; after its acknowledgements the flag; then the own slot is taken in. A
record whose crew was saved stops here first (R422). -/
def collStepD (i : Nat) (d : Dev) : Dev :=
  match d.colls[i]? with
  | none => d
  | some e =>
    if e.phase = 4 then (if e.pending.isEmpty then collAborted i e d else d)
    else match collCrew d e with
      | none => d
      | some c =>
        if e.stopped || !e.fseqs.isEmpty || c.save == .discard then d
        else
          let x := e.desc
          match e.phase with
          | 0 =>
            let d := (collWins x).foldl (collHold i c) d
            match d.colls[i]? with
            | none => d
            | some e =>
              if !(collWins x).all (fun n => e.held.contains n) || !e.fseqs.isEmpty || !collTurn d e || d.cwself == 0x3FF then d
              else
                let d := if clKind x = 0 ∧ e.step = 0 then collCopyOwn e c d else d
                (collSendChunk i e c d).modColl i (fun e => { e with phase := 1 })
          | 1 =>
            if e.pending.isEmpty then
              (collSend i e (4 * e.step) (storeBytes (4 * e.step % 64) (collFlag e e.step) 4) d).modColl i (fun e => { e with phase := 2 })
            else d
          | 2 =>
            match stageRead d e c (4 * e.step) 4 with
            | .ok v bad =>
              let d := stageFetch d e c (4 * e.step) 4
              if bad || v != collFlag e e.step then dropAnswers d (c.cluster / 64) (.coll e.crew)
              else match collRecv i e c (List.range (clChunk x / 64)) d with
                | .inr r => collFault i e c r d
                | .inl d => (dropAnswers d (c.cluster / 64) (.coll e.crew)).modColl i (fun e =>
                    if e.step + 1 = clSteps x then { e with phase := 3 } else { e with phase := 0, step := e.step + 1 })
            | r => collFault i e c r d
          | _ => d

def execCollStep (coll : Nat) (s : State) : Host.Outcome State Fault Refusal := eventStep s (collStepD coll)

/-- Releases the holds and the source tile. -/
def collRelease (e : Coll) (d : Dev) : Dev :=
  let d := e.held.foldl (fun d n => releaseHold d e.crew n) d
  match e.tileOp with
  | some id =>
    let c := e.crew / 32
    { d.setCluster c { d.cluster c with mq := (d.cluster c).mq.filter (· != id) } with mops := d.mops.erase id }
  | none => d

/-- COLL_COMPLETE (R417, R420): one arrival, and the holds end; a write still on its way can be refused or lost after it (R414). -/
def collCompleteD (i : Nat) (d : Dev) : Dev :=
  match d.colls[i]? with
  | none => d
  | some e =>
    match collCrew d e with
    | none => d
    | some c =>
      if e.phase ≠ 3 ∨ e.stopped then d
      else
        let d := (collRelease e d).modWarp (c.warps.getD e.cwarp 0) (fun w => { w with wstat := w.wstat ||| e.flags })
        sendArrival { d with
          colls := d.colls.eraseIdx i, lateAcks := d.lateAcks ++ e.pending.map (fun q => (e.part, q)) } e.crew e.id e.gate

def execCollComplete (coll : Nat) (s : State) : Host.Outcome State Fault Refusal := eventStep s (collCompleteD coll)

/-! ### Abort and re-run (R421 to R423) -/

/-- Bytes that nothing determines between an abort and the end of the re-run. -/
def freeBytes (seed : Nat) (c : Cluster) (a : Nat) : Nat → Cluster
  | 0 => c
  | n + 1 => freeBytes seed { c with scratch := memWrite c.scratch (a + n) (Config.collByte seed (a + n)) } a n

/-- DST is undefined until the re-run completes (R422). -/
def undefineDst (e : Coll) (d : Dev) : Dev :=
  match collCrew d e with
  | some c =>
    let x := (c.win (clDst e.desc)).desc
    d.setCluster c.cluster (freeBytes d.free (d.cluster c.cluster) (c.sbase + dSoff x) (dSize x))
  | none => d

/-- Takes the first message of a kind from the ports. -/
def takeMsg (m : PortMsg) : List Nat → Dev → Option Dev
  | [], _ => none
  | p :: r, d =>
    let x := d.port p
    if x.inbox.contains m then some (d.setPort p { x with inbox := x.inbox.erase m }) else takeMsg m r d

/-- COLL_ABORT (R422): an ABORT of the current attempt stops the rank and advances ATTEMPT; an older one is ignored, and one of a later
attempt waits its turn. -/
def collAbortD (i attempt : Nat) (d : Dev) : Dev :=
  match d.colls[i]? with
  | none => d
  | some e =>
    let ahead := (attempt + 256 - e.attempt) % 256
    if ahead ≠ 0 ∧ ahead < 128 then d
    else match takeMsg (.abort (clId e.desc) attempt) (List.range 8) d with
    | none => d
    | some d =>
      if attempt ≠ e.attempt then d
      else (undefineDst e d).modColl i (fun e =>
        { e with stopped := true, attempt := (e.attempt + 1) % 256, step := 0, phase := 0, ready := [], flags := 0 })

def execCollAbort (coll attempt : Nat) (s : State) : Host.Outcome State Fault Refusal := eventStep s (collAbortD coll attempt)

/-- The attempt starts at step 0 once READY has come from every rank (R423). -/
def collReadyAll (i : Nat) (d : Dev) : Dev :=
  d.modColl i (fun e => if (List.range (clN e.desc)).all (fun r => e.ready.contains r) then { e with stopped := false, step := 0, phase := 0 } else e)

/-- COLL_READY (R423): this rank's own READY, with its holds taken again and its old writes acknowledged; or a READY received, one of an
older attempt being ignored. -/
def collReadyD (i attempt rank : Nat) (d : Dev) : Dev :=
  match d.colls[i]? with
  | none => d
  | some e =>
    let add := fun (d : Dev) => collReadyAll i (d.modColl i (fun e => { e with ready := e.ready ++ [rank] }))
    if rank = clRank e.desc then
      match collCrew d e with
      | none => d
      | some c =>
        if !e.stopped || e.phase == 4 || attempt != e.attempt || e.ready.contains rank || !e.pending.isEmpty || !e.fseqs.isEmpty || c.save == .discard then d
        else
          let d := (collWins e.desc).foldl (collHold i c) d
          match d.colls[i]? with
          | none => d
          | some e =>
            if !(collWins e.desc).all (fun n => e.held.contains n) then d
            else add (tellRanks e (.ready (clId e.desc) attempt rank) d)
    else
      let ahead := (attempt + 256 - e.attempt) % 256
      if ahead ≠ 0 ∧ ahead < 128 then d
      else match takeMsg (.ready (clId e.desc) attempt rank) (List.range 8) d with
        | none => d
        | some d => if attempt = e.attempt ∧ !e.ready.contains rank then add d else d

def execCollReady (coll attempt rank : Nat) (s : State) : Host.Outcome State Fault Refusal := eventStep s (collReadyD coll attempt rank)

end Sys2Proof.Machine
end

