-- ==== Sys2Proof/Machine/Image.lean ====
section
/-!
DEFINITION. The byte image of a crew's context (R399) and the places that hold it (R400): the carved ways of the pan of its cluster, then the
spill area of its partition.
-/
namespace Sys2Proof.Machine

/-- A little-endian image: fields as (bytes, value), lowest address first. -/
abbrev Fields := List (Nat × Nat)

def packFields : Fields → Nat
  | [] => 0
  | (n, v) :: r => v % 256 ^ n + 256 ^ n * packFields r

def fieldsSize (l : Fields) : Nat := (l.map (·.1)).sum

/-- The fields with zeros up to a multiple of 64 bytes. -/
def padFields (l : Fields) : Fields := l ++ [((64 - fieldsSize l % 64) % 64, 0)]

/-- A gate's word (R365). -/
def Gate.word (g : Gate) : Nat := g.n % 256 + g.cnt % 256 * 2 ^ 8 + g.gph.toNat * 2 ^ 16

/-- The batch number of an operation: of the batch that holds it, or of the open one to come (R290). -/
def batchOf (w : Warp) (id : Nat) : Nat :=
  match w.batches.find? (fun b => b.ops.contains id) with
  | some b => b.num
  | none => w.lastBatch + 1

/-- A recorded operation (R399); a drain keeps its descriptor in the place of the format block (log 102). -/
def opFields (x : Context) (e : Nat × MOp) : Option Fields :=
  let batch := match (x.crew.warps.findIdx? (· == e.2.warp)).bind (fun i => x.warps[i]?) with
    | some w => batchOf w e.1
    | none => 0
  match e.2.kind with
  | .mma _ a b rows f => some [(4, e.2.word.toNat), (4, batch), (8, a.toNat), (8, b.toNat), (8, rows.toNat), (8, 0), (32, f.toNat), (8, 0)]
  | .drain _ desc .. => some [(4, e.2.word.toNat), (4, batch), (8, 0), (8, 0), (16, 0), (32, (desc.getD 0).toNat), (8, 0)]
  | .coll => none

/-- The crew header, 512 bytes. -/
def headerFields (n : Nest) (x : Context) (ops : List Fields) : Fields :=
  let c := x.crew
  let idx := fun (j : Nat) => ((((c.point.map (fun (p : Pt) => p.idx)).getD []).getD j 0) % 2 ^ 32).toNat
  let kept := (List.range 16).foldl (fun m t => if x.tiles.any (fun e => e.1 / 64 == t) then m + 2 ^ t else m) 0
  [(8, n.va), (1, c.id.slot), (1, c.id.die), (1, c.cidx), (1, c.warps.length),
    (4, (if x.full then 1 else 0) + (if c.point.isSome then 2 else 0)), (4, idx 0), (4, idx 1), (4, idx 2), (4, idx 3),
    (4, (c.point.map (·.linear)).getD 0), (2, kept), (1, c.token), (1, ops.length), (4, c.ssize), (4, 0)] ++
    (List.range 16).map (fun g => (8, (c.gate g).word)) ++ (ops.take 4).flatten ++ [(320 - 80 * (ops.take 4).length, 0), (16, 0)]

/-- The region table, 16 entries of 80 bytes. -/
def regionFields (c : Crew) : Fields :=
  (List.range 16).flatMap (fun i => [(64, (c.win i).desc.toNat), (8, (c.win i).word.toNat), (8, 0)])

/-- PARK: 0 none, 1 replay, 2 window wait, 3 scalar re-execute, 4 vgrow to repeat, 5 pdone, 6 ppoint. The lane stream's state goes first
(log 102). -/
def Warp.parkByte (w : Warp) : Nat :=
  match w.lpark, w.park with
  | .replay .., _ => 1
  | .window .., _ => 2
  | _, .again | _, .records _ | _, .gate .. => 3
  | _, .grow .. => 4
  | _, .point => 5
  | _, .save => 6
  | _, _ => 0

/-- An entry of the lane queue, 544 bytes. -/
def entryFields (b : Block) : Fields :=
  [(8, b.base), (1, b.count), (7, 0)] ++ (List.range 64).map (fun i => (8, if i = 0 then 0 else (b.sregs.getD i 0).toNat)) ++
    [(8, b.nmode.toNat), (1, b.lanes), (1, b.valloc), (6, 0)]

/-- A warp block, its lane queue and its vector registers. -/
def warpFields (w : Warp) : Fields :=
  (List.range 64).map (fun i => (8, (w.s i).toNat)) ++ (List.range 24).map (fun i => (8, (w.p i).toNat)) ++
    [(8, w.spc.toNat), (8, w.wstat.toNat), (8, w.nmode.toNat), (1, w.lanes), (1, w.valloc), (1, w.q.toNat), (1, w.queue.length),
      (4, w.lastBatch)] ++ (List.range 16).map (fun g => (4, (w.wph.getD g 0).toNat)) ++
    [(4, w.lword), (1, w.parkByte), (3, 0), (8, (match w.lpark with
      | .replay m .. => m.toNat
      | _ => 0)), (8, match w.park with
      | .grow n _ => n
      | _ => 0), (200, 0)] ++
    w.queue.flatMap entryFields ++ (List.range (32 * w.valloc)).map (fun r => (256, (w.v r).toNat))

/-- The kept tiles, 16,384 bytes each, in tile order. -/
def tileFields (x : Context) : Fields :=
  ((List.range 16).filter (fun t => x.tiles.any (fun e => e.1 / 64 == t))).flatMap (fun t =>
    (List.range 64).map (fun r => (256, (x.tiles.getD (t * 64 + r) 0).toNat)))

/-- The scratch allocation, then its poison bits, one for 16 bytes. -/
def scratchFields (x : Context) : Fields :=
  [(x.crew.ssize, x.scratch.foldl (fun v b => v + b.2.toNat * 256 ^ b.1) 0),
    (x.crew.ssize / 128, x.spoison.foldl (fun v b => v ||| 2 ^ b) 0)]

/-- The image of a context (R399). -/
def contextFields (n : Nest) (x : Context) : Fields :=
  let ops := x.ops.filterMap (opFields x)
  headerFields n x ops ++ regionFields x.crew ++ x.warps.flatMap (fun w => padFields (warpFields w)) ++ tileFields x ++
    padFields (scratchFields x) ++ padFields (ops.drop 4).flatten

/-- Writes the image to the carved ways of pan c while they have room, and the rest to the partition's spill area (R400; log 102). -/
def writeImage (n : Nest) (x : Context) (d : Dev) : Dev :=
  let l := contextFields n x
  let size := fieldsSize l
  let v := packFields l
  let c := x.crew.cluster
  let first := Nat.min size (carveCurrent (d.pan c).pcarve * wayBytes - imagesSize (d.pan c))
  let d := if first = 0 then d else d.setPan c { d.pan c with images := (d.pan c).images ++ [⟨x.crew.id, first, v % 256 ^ first⟩] }
  if size = first then d
  else d.setPart n.part { d.part n.part with spill := (d.part n.part).spill ++ [⟨x.crew.id, size - first, v / 256 ^ first⟩] }

end Sys2Proof.Machine
end

