-- ==== Sys2Proof/Machine/Queues.lean ====
section
/-!
DEFINITION. Queues and the Pier's queue and scheduler harts (R369 to R382): packets, notify, control blocks, mapping, wait monitors.
-/
namespace Sys2Proof.Machine

/-! ### The ring (R369, R371) -/

/-- LAP(w) of R369. -/
def lapOf (rlog w : Nat) : Nat := (w / 2 ^ rlog) % (if rlog = 16 then 65534 else 65535) + 1

def pkField (x : BitVec 512) (byte n : Nat) : Nat := (x.toNat >>> (8 * byte)) % 256 ^ n
def pkType (x : BitVec 512) : Nat := pkField x 2 1
def pkSerial (x : BitVec 512) : Bool := (pkField x 3 1).testBit 0
def pkIrq (x : BitVec 512) : Bool := (pkField x 3 1).testBit 1
def pkAddr (x : BitVec 512) : Nat := pkField x 8 8
def pkValue (x : BitVec 512) : Nat := pkField x 16 8
def pkSaddr (x : BitVec 512) : Nat := pkField x 24 8
def pkSvalue (x : BitVec 512) : Nat := pkField x 32 8

/-- The checks of R371. -/
def packetOk (x : BitVec 512) : Bool :=
  pkType x ≤ 3 && pkField x 3 1 < 4 && pkField x 4 4 == 0 && pkField x 40 24 == 0 &&
    (match pkType x with
      | 1 => pkAddr x % 256 == 0 && pkValue x % 8 == 0 && pkSaddr x % 8 == 0
      | 2 => pkAddr x % 8 == 0 && pkSaddr x ≤ 2
      | 3 => pkAddr x % 8 == 0
      | _ => true)

/-! ### Harts -/

/-- Minimal mode (R436, R438). -/
def bsMinimal (b : Boot) : Bool := bit b.bootstat 0

/-- A step of a hart of the Pier, of which only hart 35 runs in minimal mode (R438). -/
def hartEvent (s : State) (f : Dev → Dev) : Host.Outcome State Fault Refusal := eventStep s (if bsMinimal s.boot then id else f)

def Queue.idle (x : Queue) : Bool := x.head == x.tail && x.pstep == 0 && !x.mirror
/-- Blocked within a packet (R379). -/
def Queue.waiting (x : Queue) : Bool := x.pstep != 0 && x.blocked
/-- The hart is between packets, blocked in a wait or between launch retries (R380): it has no store or walk of its own under way. -/
def Queue.between (x : Queue) : Bool := !x.mirror && x.final.isNone && x.store.isNone && (x.pstep == 0 || x.blocked)

def Dev.modQueue (d : Dev) (q : Nat) (f : Queue → Queue) : Dev := d.setQueue q (f (d.queue q))
def Dev.modSlot (d : Dev) (s : Nat) (f : Slot → Slot) : Dev := d.setSlot s (f (d.slot s))

/-- The slot a queue is mapped to. -/
def slotOf (d : Dev) (q : Nat) : Option Nat := (List.range 32).find? (fun s => (d.slot s).queue == some q)

/-- Device time in ns (R378). -/
def nowNs (d : Dev) : Nat := d.clock * 5 / 3

/-- Ends the watch of a slot's monitor. -/
def unwatch (d : Dev) (s : Nat) : Dev :=
  { d.modSlot s (fun x => { x with armed := false, wmpa := none, met := false, fired := false, wfi := false }) with
    pans := d.pans.map (fun e => (e.1, { e.2 with watches := e.2.watches.filter (fun w => w.2 != s) })) }

/-- Frees a slot; the queue is pending when packets or a step are left (R379). -/
def unmap (d : Dev) (s : Nat) : Dev :=
  match (d.slot s).queue with
  | none => d
  | some q =>
    let d := (unwatch (forgetAsks d (· == .hart s)) s).modSlot s (fun x => { x with queue := none })
    d.modQueue q (fun x => let x := { x with tailCopy := x.tail }
      if x.state = 1 ∧ !x.idle then { x with pending := true, psince := nowNs d } else x)

/-- ERROR (R376): the slot is given up. -/
def queueError (d : Dev) (q code : Nat) : Dev :=
  let d := d.modQueue q (fun x => { x with state := 2, err := code, pending := false })
  let d := match slotOf d q with
    | some s => unmap d s
    | none => d
  d.raise (4 * (d.queue q).part + 1)

/-- A fault of a hart's access (R372): a record that the packet waits for (its slot becomes a waiting one, R380), or ERROR. -/
def queueFault (d : Dev) (q : Nat) (c : FCode) (va : Nat) : Dev :=
  if c = .notMapped then
    let (d, f) := addFault d (d.queue q).part (va / 65536 * 65536) 0 q .notMapped 0 0xFFFF 255
    let d := d.modQueue q (fun x => { x with fseq := some f, blocked := x.pstep != 0 })
    if (d.queue q).pstep = 0 then d else d.setPart (d.queue q).part { d.part (d.queue q).part with due := true }
  else queueError d q 3

/-- The tags and sectors that a hart's read of n bytes finds at the pans (R68, R102). -/
def hartFetch (d : Dev) (s p va n : Nat) : Dev := agentFetch d 0 [] (.hart s) p (BitVec.ofNat 64 va) n

/-- A read of n bytes by the hart of a slot, through its partition's translation. -/
def hartRead (d : Dev) (s p va n : Nat) : AgentRead := agentRead d 0 [] (.hart s) p (BitVec.ofNat 64 va) n

/-- A read of n pieces of 64 bytes. -/
def hartReads (d : Dev) (s p va : Nat) : Nat → AgentRead
  | 0 => .ok 0 false
  | n + 1 =>
    match hartRead d s p va 64 with
    | .ok v b => match hartReads d s p (va + 64) n with
      | .ok r b' => .ok (v + 256 ^ 64 * r) (b || b')
      | x => x
    | x => x

/-- The hart of a slot goes on after a read: it waits for a walk or at a pan, or its queue meets the fault (R372). -/
def hartGot (d : Dev) (s q : Nat) (r : AgentRead) (f : Nat → Dev) : Dev :=
  match r with
  | .wait => d
  | .miss va => addMiss d 0 (d.queue q).part va (.hart s)
  | .fault c va => queueFault (dropAnswers d 0 (.hart s)) q c va
  | .ok v _ => f v

/-- The hart of a slot stores n bytes, then goes on; a store that has to wait is tried again with the hart's next step. -/
def hartStore (d : Dev) (s q va n v : Nat) (f : Dev → Dev) : Dev :=
  match agentPut d (.hart s) (d.queue q).part (d.queue q).store va n v with
  | .done d => f ((dropAnswers d 0 (.hart s)).modQueue q (fun x => { x with store := none }))
  | .busy d op => d.modQueue q (fun x => { x with store := op })
  | .fault c => queueFault (dropAnswers d 0 (.hart s)) q c va

def raiseIrq (d : Dev) (p : Nat) (irq : Bool) : Dev := if irq then d.raise (4 * p) else d

/-- The packet has ended; a queue that has become idle calls for a decision (R380). -/
def packetDone (q : Nat) (irq : Bool) (d : Dev) : Dev :=
  let p := (d.queue q).part
  let d := (raiseIrq d p irq).modQueue q (fun x => { x with pstep := 0, pkt := 0, blocked := false, final := none })
  if (d.queue q).idle then
    let d := match slotOf d q with
      | some s => d.modSlot s (fun x => { x with idle := d.clock })
      | none => d
    d.setPart p { d.part p with due := true }
  else d

/-- The packet blocks in a step of R378. -/
def packetBlocked (q pstep : Nat) (x : BitVec 512) (d : Dev) : Dev :=
  let was := (d.queue q).blocked
  let d := d.modQueue q (fun y => { y with pstep := pstep, pkt := x, blocked := true })
  if was then d else d.setPart (d.queue q).part { d.part (d.queue q).part with due := true }

/-- The final status of a launch is stored at VALUE, which ends the packet (R372). -/
def statusStore (s q : Nat) (x : BitVec 512) (st : Nat) (d : Dev) : Dev :=
  if pkValue x = 0 then packetDone q (pkIrq x && st != 0) d
  else hartStore (d.modQueue q (fun y => { y with pstep := 1, pkt := x, final := some st })) s q (pkValue x) 8 st
    (packetDone q (pkIrq x && st != 0))

/-- A launch from the host (R334, R372). -/
def launchTry (s q : Nat) (x : BitVec 512) (d : Dev) : Dev :=
  let p := (d.queue q).part
  let va := pkAddr x
  let die := (d.part p).firstSpan / 4
  let d := hartFetch d s p va 256
  hartGot d s q (hartReads d s p va 4) (fun rv =>
    let r : BitVec 2048 := BitVec.ofNat 2048 rv
    let wcnt := recField r 56 4 / 2 ^ 18 % 32
    let d := hartFetch d s p (recField r 32 8) (64 * wcnt)
    hartGot d s q (hartReads d s p (recField r 32 8) wcnt) (fun y =>
      match agentX d 0 [] (.hart s) p va .read with
      | .hit pa l =>
        let descs : List Desc := (codesOf 512 y wcnt).map (BitVec.ofNat 512)
        let st := launchStatus d p die r descs l.w
        let d := dropAnswers d 0 (.hart s)
        if st % 256 = 6 ∨ st % 256 = 7 then (packetBlocked q 3 x d).modQueue q (fun y => { y with retry := false })
        else if st ≠ 0 then statusStore s q x st d
        else
          let d := d.modQueue q (fun y => { y with open_ := y.open_ + 1 })
          statusStore s q x st (startNest d p die va pa r descs 1 none (some (q, pkSaddr x, BitVec.ofNat 64 (pkSvalue x), pkIrq x)))
      | _ => d))

/-- Registers the watch of a word in device memory at its current pan, which compares at once (R382). -/
def watchWord (s p va : Nat) (d : Dev) : Dev :=
  match agentX d 0 [] (.hart s) p va .read with
  | .hit pa _ =>
    let d := dropAnswers d 0 (.hart s)
    if isHbm pa then
      let pan := currentPan d p (pa / 64)
      (d.setPan pan { d.pan pan with watches := (d.pan pan).watches ++ [(pa / 64, s)] }).modSlot s (fun x =>
        { x with wmpa := some pa, met := waitCond x.wmcond (devReadN d pa 8) x.wmval.toNat })
    else d
  | .miss => addMiss d 0 p va (.hart s)
  | .fault _ => d

/-- The monitor is armed, or has fired, for the condition of a packet. -/
def Slot.awaits (y : Slot) (x : BitVec 512) : Bool :=
  y.wmaddr == pkAddr x && y.wmval == BitVec.ofNat 64 (pkValue x) && y.wmcond == pkSaddr x

/-- A WAIT (R372, R382): its condition holds, or the packet blocks: the hart has armed its monitor, and the WFI ends when that fires, or with
a notify to the queue. -/
def waitTry (s q : Nat) (x : BitVec 512) (d : Dev) : Dev :=
  let d := hartFetch d s (d.queue q).part (pkAddr x) 8
  if (d.slot s).fired ∧ (d.slot s).awaits x then packetDone q (pkIrq x) (unwatch d s)
  else hartGot d s q (hartRead d s (d.queue q).part (pkAddr x) 8) (fun v =>
    let e := dropAnswers d 0 (.hart s)
    if waitCond (pkSaddr x) v (pkValue x) then packetDone q (pkIrq x) (unwatch e s)
    else if (d.slot s).armed ∧ (d.slot s).awaits x then (packetBlocked q 2 x e).modSlot s (fun y => { y with wfi := true })
    else
      let d := (unwatch (packetBlocked q 2 x d) s).modSlot s (fun y =>
        { y with wmaddr := pkAddr x, wmval := BitVec.ofNat 64 (pkValue x), wmcond := pkSaddr x, armed := true, wfi := true })
      watchWord s (d.queue q).part (pkAddr x) d)

/-- Goes on with the packet that a queue has taken (R372). -/
def packetGo (s q : Nat) (x : BitVec 512) (d : Dev) : Dev :=
  let y := d.queue q
  match pkType x with
  | 0 => packetDone q (pkIrq x) d
  | 1 =>
    match y.final with
    | some st => statusStore s q x st d
    | none => if pkSerial x ∧ y.open_ ≠ 0 ∧ y.pstep ≠ 3 then packetBlocked q 1 x d else launchTry s q x (d.modQueue q (fun y =>
      { y with pstep := if y.pstep = 3 then 3 else 1, pkt := x, blocked := false }))
  | 2 => if (d.slot s).wfi then d else waitTry s q x (d.modQueue q (fun y => { y with pstep := 2, pkt := x }))
  | _ =>
    if y.open_ ≠ 0 then packetBlocked q 1 x d
    else hartStore (d.modQueue q (fun y => { y with pstep := 1, pkt := x, blocked := false })) s q (pkAddr x) 8 (pkValue x) (packetDone q (pkIrq x))

/-- What the slot at HEAD holds (R377). -/
inductive AtHead where
  | none
  | bad
  | packet (x : BitVec 512)
  deriving DecidableEq, Repr

def atHead (x : Queue) (v : Nat) : AtHead :=
  let lap := v % 65536
  if lap = lapOf x.rlog x.head.toNat then .packet (BitVec.ofNat 512 v)
  else if lap = 0 ∨ lap = lapOf x.rlog ((x.head - BitVec.ofNat 32 (2 ^ x.rlog)).toNat) then .none
  else .bad

/-- The address of the slot at HEAD. -/
def Queue.headAt (x : Queue) : Nat := x.ring + 64 * (x.head.toNat % 2 ^ x.rlog)

/-- The hart of slot s reads the slot at HEAD. -/
def readHead (d : Dev) (s : Nat) (x : Queue) : AgentRead := hartRead d s x.part x.headAt 64
def headFetch (d : Dev) (s : Nat) (x : Queue) : Dev := hartFetch d s x.part x.headAt 64

/-- The hart of a mapped queue can act; a partition that is being disabled has its queues stopped before its nests have ended (R427, log 70). -/
def hartQueue (d : Dev) (s : Nat) : Option (Nat × Queue) :=
  match (d.slot s).queue with
  | some q =>
    let x := d.queue q
    if x.state = 1 ∧ x.fseq.isNone ∧ !(d.part x.part).halted ∧ !(d.part x.part).zeroing then some (q, x) else none
  | none => none

/-- HEAD goes to the mirror, and the packet just taken is checked and carried out (R371 to R373). -/
def packetMirror (s q : Nat) (p : BitVec 512) (d : Dev) : Dev :=
  hartStore d s q (d.queue q).hmir 4 (d.queue q).head.toNat (fun d =>
    let d := d.modQueue q (fun y => { y with mirror := false, pkt := 0 })
    if packetOk p then packetGo s q p d else queueError d q 2)

/-- The queue hart of a slot at a packet of type t (R372, R373, R377): the packet at HEAD is read and its slot freed, then checked and
carried out; a packet taken before goes on. -/
def packetStep (t s : Nat) (d : Dev) : Dev :=
  match hartQueue d s with
  | none => d
  | some (q, x) =>
    if x.mirror then (if packetOk x.pkt && pkType x.pkt != t then d else packetMirror s q x.pkt d)
    else if x.pstep ≠ 0 then (if pkType x.pkt = t ∧ x.pstep ≠ 3 then packetGo s q x.pkt d else d)
    else if x.head = x.tail then d
    else
      let d := headFetch d s x
      hartGot d s q (readHead d s x) (fun v =>
      let d := dropAnswers d 0 (.hart s)
      match atHead x v with
      | .none => d
      | .bad => queueError d q 2
      | .packet p =>
        if packetOk p && pkType p != t then d
        else packetMirror s q p (d.modQueue q (fun y => { y with head := y.head + 1, mirror := true, pkt := p })))

def execPacketNop (slot : Nat) (s : State) : Host.Outcome State Fault Refusal := hartEvent s (packetStep 0 slot)
def execPacketLaunch (slot : Nat) (s : State) : Host.Outcome State Fault Refusal := hartEvent s (packetStep 1 slot)
def execPacketWait (slot : Nat) (s : State) : Host.Outcome State Fault Refusal := hartEvent s (packetStep 2 slot)
def execPacketSignal (slot : Nat) (s : State) : Host.Outcome State Fault Refusal := hartEvent s (packetStep 3 slot)

/-- LAUNCH_RETRY (R372): a nest of the partition has completed since the last try. -/
def launchRetryD (s : Nat) (d : Dev) : Dev :=
  match hartQueue d s with
  | some (q, x) => if x.pstep = 3 ∧ x.retry then launchTry s q x.pkt (d.modQueue q (fun y => { y with blocked := false })) else d
  | none => d

def execLaunchRetry (slot : Nat) (s : State) : Host.Outcome State Fault Refusal := hartEvent s (launchRetryD slot)

/-- SLOT_POLL (R377): the waiting hart reads the slot at HEAD again. -/
def slotPollD (s : Nat) (d : Dev) : Dev :=
  match hartQueue d s with
  | some (q, x) =>
    if x.pstep ≠ 0 ∨ x.head = x.tail ∨ x.mirror then d
    else
      let d := headFetch d s x
      hartGot d s q (readHead d s x) (fun v =>
      let d := dropAnswers d 0 (.hart s)
      match atHead x v with
      | .bad => queueError d q 2
      | _ => d)
  | none => d

def execSlotPoll (slot : Nat) (s : State) : Host.Outcome State Fault Refusal := hartEvent s (slotPollD slot)

/-- COMPLETION_SIGNAL (R372): the value is stored and the vector raised; a queue in ERROR still writes it (R376). -/
def completionSignalD (i : Nat) (d : Dev) : Dev :=
  match d.signals[i]? with
  | none => d
  | some g =>
    let x := d.queue g.queue
    let who := Asker.hart (64 + g.queue)
    let drop := fun (d : Dev) => { dropAnswers d 0 who with signals := d.signals.eraseIdx i }
    if x.fseq.isSome then d
    else if g.saddr = 0 then raiseIrq (drop d) x.part g.irq
    else match agentPut d who x.part g.store g.saddr 8 g.svalue.toNat with
      | .done d => raiseIrq (drop d) x.part g.irq
      | .busy d op => { d with signals := d.signals.set i { g with store := op } }
      | .fault c => if c = .notMapped then queueFault (dropAnswers d 0 who) g.queue c g.saddr else queueError (drop d) g.queue 3

def execCompletionSignal (pos : Nat) (s : State) : Host.Outcome State Fault Refusal := hartEvent s (completionSignalD pos)

/-! ### Notify and control blocks (R374 to R378) -/

/-- NOTIFY (R375). -/
def notifyD (q : Nat) (v : W64) (d : Dev) : Dev :=
  let x := d.queue q
  let t : BitVec 32 := v.setWidth 32
  if x.state ≠ 1 then d
  else if (t - x.tail).toNat = 0 ∨ 2 ^ 31 - 1 < (t - x.tail).toNat then d.setQueue q { x with stale := (x.stale + 1) % 2 ^ 32 }
  else if 2 ^ x.rlog < (t - x.head).toNat then queueError d q 1
  else
    let d := d.setQueue q { x with tail := t }
    match slotOf d q with
    | some s => d.modSlot s (fun y => { y with wfi := false })
    | none =>
      let d := if x.pending then d else d.setQueue q { x with tail := t, pending := true, psince := nowNs d }
      d.setPart x.part { d.part x.part with due := true }

def execNotify (queue : Nat) (v : W64) (s : State) : Host.Outcome State Fault Refusal := eventStep s (notifyD queue v)

/-- A control block's fields (R378). -/
def blockQueue (b : List Byte) : Queue :=
  let n := b.foldr (fun x a => x.toNat + 256 * a) 0
  let f := fun (byte len : Nat) => (n / 256 ^ byte) % 256 ^ len
  { ring := f 0 8, hmir := f 8 8, head := BitVec.ofNat 32 (f 16 4), tail := BitVec.ofNat 32 (f 20 4), rlog := f 24 1, prio := f 25 1 % 8,
    part := f 26 1 % 16, state := f 27 1, err := f 28 1, pstep := f 29 1, pkt := BitVec.ofNat 512 (f 32 64), open_ := f 96 4,
    stale := f 100 4, psince := f 104 8, pending := false, fseq := none, retry := true, tailCopy := BitVec.ofNat 32 (f 20 4),
    blocked := false, mirror := false, final := none, store := none }

/-- The control block y takes the place of x's; the notify table keeps HEAD, TAIL and the pending bit (R374, R378). -/
def Queue.block (x y : Queue) : Queue := { y with head := x.head, tail := x.tail, pending := x.pending }

/-- QCB_WRITE (R378, R432), of the 1,024 queues (R11): ignored until features are agreed. A write to a mapped queue that leaves it ENABLED
changes only the table's block, which the next save overwrites (log 100). -/
def qcbWriteD (q : Nat) (b : List Byte) (d : Dev) : Dev :=
  let x := d.queue q
  let y := blockQueue b
  if 1024 ≤ q then d
  else if y.state ≠ 1 then
    let d := match slotOf d q with
      | some s => unmap d s
      | none => d
    d.setQueue q ((d.queue q).block y)
  else if x.state = 1 then
    if (slotOf d q).isSome ∨ y.rlog < 4 ∨ 16 < y.rlog ∨ y.ring % (64 * 2 ^ y.rlog) ≠ 0 then d
    else d.setQueue q { x.block y with psince := x.psince }
  else if y.rlog < 4 ∨ 16 < y.rlog ∨ y.ring % (64 * 2 ^ y.rlog) ≠ 0 then d.setQueue q { x.block y with state := 0 }
  else if 2 ^ y.rlog < (y.tail - y.head).toNat then d
  else
    let p := y.head != y.tail
    let d := d.setQueue q { y with pending := p, psince := if p then nowNs d else y.psince }
    if p then d.setPart y.part { d.part y.part with due := true } else d

/-- The host and the device have agreed on features (R432), and more than hart 35 runs (R438). -/
def hostReady (b : Boot) : Bool := bit b.featctl 1 && !bsMinimal b

def execQcbWrite (queue : Nat) (block : List Byte) (s : State) : Host.Outcome State Fault Refusal :=
  eventStep s (if hostReady s.boot then qcbWriteD queue block else id)

/-! ### The scheduler (R379, R380) -/

/-- Effective priority of a pending queue (R379). -/
def pendingEp (d : Dev) (x : Queue) : Nat := x.prio + Nat.min 8 ((nowNs d - x.psince) / 50000)

/-- The pending queue that goes first. -/
def nextPending (d : Dev) (p : Nat) : Option (Nat × Queue) :=
  (d.queues.filter (fun e => e.2.part == p && e.2.pending && e.2.state == 1)).foldl (fun b e => match b with
    | none => some e
    | some y => if pendingEp d y.2 < pendingEp d e.2 ∨ (pendingEp d y.2 = pendingEp d e.2 ∧ e.2.psince < y.2.psince) then some e else b) none

/-- Mapped slots of a partition with their queues. -/
def mappedOf (d : Dev) (p : Nat) : List (Nat × Nat × Queue) :=
  (List.range 32).filterMap (fun s => (d.slot s).queue.bind (fun q => if (d.queue q).part = p then some (s, q, d.queue q) else none))

/-- The entry with the least key, the lowest queue number at a tie. -/
def leastBy (f : Nat × Nat × Queue → Nat) (l : List (Nat × Nat × Queue)) : Option (Nat × Nat × Queue) :=
  l.foldl (fun b e => match b with
    | none => some e
    | some y => if f e < f y ∨ (f e = f y ∧ e.2.1 < y.2.1) then some e else b) none

def qslots (d : Dev) (p : Nat) : Nat := bits (d.part p).pctl 37 32

/-- The slot that a pending queue of effective priority ep gets (R380). -/
def victimSlot (d : Dev) (p ep : Nat) : Option Nat :=
  let l := mappedOf d p
  match (if l.length < qslots d p then (List.range 32).find? (fun s => (d.slot s).queue.isNone) else none) with
  | some s => some s
  | none =>
    match leastBy (fun e => (d.slot e.1).idle) (l.filter (fun e => e.2.2.idle || e.2.2.state != 1)) with
    | some e => some e.1
    | none =>
      match leastBy (fun e => e.2.2.prio) (l.filter (fun e => e.2.2.waiting && e.2.2.prio < ep)) with
      | some e => some e.1
      | none => (leastBy (fun e => e.2.2.prio) (l.filter (fun e => !e.2.2.waiting && e.2.2.prio < ep &&
          (d.slot e.1).mapped + 120000 ≤ d.clock))).map (·.1)

/-- Maps a queue to a slot (R379). -/
def mapQueue (d : Dev) (s q : Nat) : Dev :=
  (d.modQueue q (fun x => { x with pending := false, blocked := false })).modSlot s (fun y =>
    { Slot.empty with queue := some q, mapped := d.clock, idle := d.clock, wmaddr := y.wmaddr, wmval := y.wmval, wmcond := y.wmcond })

/-- One mapping of schedule; `only` restricts the victim, whose hart must have ended its step (R380). -/
def mapOne (p : Nat) (only : Nat → Bool) (d : Dev) : Dev :=
  if (d.part p).halted || (d.part p).zeroing then d
  else match nextPending d p with
    | none => d
    | some (q, x) =>
      match victimSlot d p (pendingEp d x) with
      | none => d
      | some s =>
        if !only s then d
        else if ((d.slot s).queue.map (fun v => (d.queue v).between)).getD true then mapQueue (unmap d s) s q
        else d.setPart p { d.part p with due := true }

/-- schedule(partition) of R380; every mapping takes one pending queue off, and at most 32 slots change. -/
def scheduleNow (p : Nat) (d : Dev) : Dev := times (mapOne p (fun _ => true)) 64 (d.setPart p { d.part p with due := false })

/-- SCHEDULE_DECISION (R380): at a notify to an unmapped queue, or when a slot has become idle or waiting. -/
def scheduleDecisionD (p : Nat) (d : Dev) : Dev := if (d.part p).due then scheduleNow p d else d

def execScheduleDecision (part : Nat) (s : State) : Host.Outcome State Fault Refusal :=
  hartEvent s (scheduleDecisionD part)

/-- SCHEDULER_TICK (R380): every 50 µs, for each partition. -/
def schedulerTickD (d : Dev) : Dev :=
  if d.clock / 30000 ≤ d.tick then d
  else (List.range 16).foldl (fun d p => scheduleNow p d) { d with tick := d.clock / 30000 }

/-- The scheduler hart does not run in minimal mode (R438). -/
def execSchedulerTick (s : State) : Host.Outcome State Fault Refusal := hartEvent s (schedulerTickD)

/-- QUEUE_MAPPED_200US (R380). -/
def queueMapped200D (s : Nat) (d : Dev) : Dev :=
  match (d.slot s).queue with
  | some q =>
    if (d.slot s).seen200 ∨ d.clock < (d.slot s).mapped + 120000 then d
    else scheduleNow (d.queue q).part (d.modSlot s (fun x => { x with seen200 := true }))
  | none => d

def execQueueMapped200us (slot : Nat) (s : State) : Host.Outcome State Fault Refusal :=
  hartEvent s (queueMapped200D slot)

/-- QUEUE_UNMAP (R380): a due decision replaces the queue of this slot by the pending one. -/
def queueUnmapD (s : Nat) (d : Dev) : Dev :=
  match (d.slot s).queue with
  | some q => if (d.part (d.queue q).part).due then mapOne (d.queue q).part (· == s) d else d
  | none => d

def execQueueUnmap (slot : Nat) (s : State) : Host.Outcome State Fault Refusal :=
  hartEvent s (queueUnmapD slot)

/-! ### Wait monitors (R382) -/

/-- A write to WMCOND of the monitor of slot s arms it. -/
def waitMonitorArmD (s : Nat) (cond : W64) (d : Dev) : Dev :=
  let d := (unwatch d s).modSlot s (fun x => { x with wmcond := bits cond 7 0, armed := true })
  match (d.slot s).queue with
  | some q => watchWord s (d.queue q).part (d.slot s).wmaddr d
  | none => d

/-- A hart's write to a register of its slot's monitor (R382; log 114): slot numbers from 32 on name WMADDR, and from 64 on WMVAL. -/
def monitorWriteD (n : Nat) (v : W64) (d : Dev) : Dev :=
  match n / 32 with
  | 0 => waitMonitorArmD n v d
  | 1 => d.modSlot (n - 32) (fun x => { x with wmaddr := v.toNat })
  | 2 => d.modSlot (n - 64) (fun x => { x with wmval := v })
  | _ => d

/-- WAIT_MONITOR_ARM: a queue hart, which does not run in minimal mode (R438), writes its monitor. -/
def execWaitMonitorArm (slot : Nat) (cond : W64) (s : State) : Host.Outcome State Fault Refusal :=
  hartEvent s (monitorWriteD slot cond)

/-- The monitor fires. -/
def monitorFires (s : Nat) (d : Dev) : Dev := (unwatch d s).modSlot s (fun y => { y with fired := true })

/-- WAIT_MONITOR_FIRE (R382): a write to the watched line has met the condition. A watch that waits for its translation is registered. -/
def monitorFireD (s : Nat) (d : Dev) : Dev :=
  let x := d.slot s
  match x.queue with
  | some q => if !x.armed then d else if x.wmpa.isNone then watchWord s (d.queue q).part x.wmaddr d else if x.met then monitorFires s d else d
  | none => d

/-- WAIT_MONITOR_POLL (R382): the monitor reads a word of host or peer memory. -/
def monitorPollD (s : Nat) (d : Dev) : Dev :=
  let x := d.slot s
  match x.queue with
  | some q =>
    if !x.armed ∨ x.wmpa.isSome then d
    else match agentX d 0 [] (.hart s) (d.queue q).part x.wmaddr .read with
      | .hit pa _ =>
        let d := dropAnswers d 0 (.hart s)
        if !isHbm pa ∧ waitCond x.wmcond (devReadN d pa 8) x.wmval.toNat then monitorFires s d else d
      | .miss => addMiss d 0 (d.queue q).part x.wmaddr (.hart s)
      | .fault _ => d
  | none => d

def execWaitMonitorFire (slot : Nat) (s : State) : Host.Outcome State Fault Refusal := hartEvent s (monitorFireD slot)
def execWaitMonitorPoll (slot : Nat) (s : State) : Host.Outcome State Fault Refusal := hartEvent s (monitorPollD slot)

end Sys2Proof.Machine
end

