-- ==== Sys2Proof/Machine/Preempt.lean ====
section
/-!
DEFINITION. Pre-emption (R392 to R407): crews discarded, drained, saved and restored; nests and partitions swapped out and back; mailboxes
and returned arrivals. A context has its byte image (Machine/Image.lean), and the model's own terms beside it (log 27).
-/
namespace Sys2Proof.Machine

/-! ### Requests (R393, R394) -/

/-- The crews of a crew's gang. -/
def gangOf (d : Dev) (c : Crew) : Tab Crew := d.crews.filter (fun e => e.2.id.nest == c.id.nest && e.2.gang == c.gang)

/-- The crew's point has launched a child nest. -/
def hasLaunched (n : Nest) (pt : Pt) : Bool := n.points.any (fun p => p.pt.linear == pt.linear && p.launched)

/-- What a request makes of a crew (R394); in a save of the whole nest the crews drain until TSAVE (R402). -/
def saveKind (n : Nest) (whole : Bool) (c : Crew) : SaveReq :=
  match c.point with
  | none => .drain
  | some pt => if whole then .drain else if n.idem && !hasLaunched n pt then .discard else .pending

/-- Applies a request to crews that have none yet. -/
def askSave (n : Nest) (whole : Bool) (d : Dev) (l : Tab Crew) : Dev :=
  l.foldl (fun d e => d.modCrew e.1 (fun c => if c.save = .none then { c with save := saveKind n whole c, saveAt := d.clock } else c)) d

/-- CREW_PREEMPT (R394): the gang of the crew is pre-empted as a unit. -/
def crewPreemptD (ck : Nat) (d : Dev) : Dev :=
  match d.crews.get? ck with
  | none => d
  | some c =>
    match d.nests.get? c.id.nest with
    | none => d
    | some n => if n.ending then d else rakeRun c.id.nest (askSave n false d (gangOf d c))

def execCrewPreempt (crew : Nat) (s : State) : Host.Outcome State Fault Refusal := hartEvent s (crewPreemptD crew)

/-- TSAVE of a partition in core clocks (R393, R425). -/
def tsave (d : Dev) (p : Nat) : Nat := bits (d.part p).pctl 63 48 * 600

/-- A batch of the crew is incomplete. -/
def batchesOpen (d : Dev) (c : Crew) : Bool := c.warps.any (fun wk => ((d.warps.get? wk).map (fun w => !w.batches.isEmpty)).getD false)

/-- TSAVE_EXPIRY (R394, R402): every crew of the gang that has not stopped, or whose batches cannot complete, is saved in full. -/
def tsaveExpiryD (ck : Nat) (d : Dev) : Dev :=
  match d.crews.get? ck with
  | none => d
  | some c =>
    (gangOf d c).foldl (fun d e =>
      if (e.2.save == .pending || (e.2.save == .drain && e.2.point.isSome) || (e.2.save == .atPoint && batchesOpen d e.2)) && e.2.saveAt + tsave d e.2.id.part ≤ d.clock then
        d.modCrew e.1 (fun c => { c with save := .full })
      else d) d

def execTsaveExpiry (crew : Nat) (s : State) : Host.Outcome State Fault Refusal := hartEvent s (tsaveExpiryD crew)

/-! ### Saving (R395 to R397, R407) -/

/-- The warp waits for the driver's answer (R407). -/
def awaitsAnswer (w : Warp) : Bool :=
  match w.stop with
  | some t => t.cls == .user || t.cls == .sysc
  | none => false

/-- The warp has stopped of itself: at ppoint, at pdone, or for an answer (R394, R407). -/
def stoppedAtPoint (w : Warp) : Bool := awaitsAnswer w || (w.stop.isNone && (w.park == .save || w.park == .point))

def Crew.stopping (c : Crew) : Bool := c.save == .full || c.save == .atPoint || c.save == .discard

/-- Steps 1 and 2 of R395 for one warp: waiting vgrow and gate waits are withdrawn, gtry returns false. -/
def withdrawWarp (d : Dev) (wk : Nat) : Dev :=
  match d.warps.get? wk with
  | none => d
  | some w =>
    let d := withdrawGrow d wk w
    match w.park with
    | .gate _ none => d.setWarp wk { w with park := .again }
    | .gate _ (some (_, q)) => done d wk (w.setQ q false) 4
    | _ => d.setWarp wk w

/-- A filling window is withdrawn, unless by an accepted group fill (R192). -/
def withdrawWin (ck : Nat) (d : Dev) (n : Nat) : Dev :=
  let x := d.win ck n
  if x.state = .filling ∧ (x.filler = .copy ∨ x.filler = .ask) then dropJob (d.setWin ck n { x with filler := .none, asking := if x.filler = .ask then 2 else 0 }) ck n else d

/-- Steps 1 and 2 of R395 for a crew. -/
def withdrawCrew (d : Dev) (ck : Nat) (c : Crew) : Dev := c.wins.keys.foldl (withdrawWin ck) (c.warps.foldl withdrawWarp d)

/-- The counters of a warp are 0, but for a word that waits for its replay (R392, R395). -/
def warpQuiet (d : Dev) (w : Warp) : Bool :=
  let mine := fun (o : Out) => w.replayOp != some o.id
  [Path.g, .x, .a, .t].all (fun p => ((w.outs p).filter mine).isEmpty) && w.install.isNone && (w.stop.isNone || awaitsAnswer w) &&
    (match w.replayOp.bind (fun i => d.ops.get? i) with
      | some o => o.finished && o.remotes.all (fun r => r.2.back)
      | none => true)

/-- Step 3 of R395, with R301's completion of every batch for a save at ppoint. -/
def saveQuiet (d : Dev) (ck : Nat) (c : Crew) : Bool :=
  c.warps.all (fun wk => ((d.warps.get? wk).map (warpQuiet d)).getD true) && noFill c &&
    d.mops.all (fun e => e.2.crew != ck || !e.2.started || !(d.cluster c.cluster).mq.contains e.1) &&
    (c.save != .atPoint || !batchesOpen d c)

/-- Declared tiles that the save keeps (R301, R397, R422). -/
def keptTiles (d : Dev) (c : Crew) : List Nat :=
  let live := c.warps.foldl (fun m wk => match d.warps.get? wk with
    | some w => if w.park == .save then m ||| w.live else m
    | none => m) (0 : W64)
  let coll := d.colls.filterMap (fun e => if e.id = c.id ∧ clSrck e.desc = 1 then some (clSrc e.desc) else none)
  (c.tiles.keys).filter (fun t => c.save == .full || live.getLsbD t || coll.contains t)

/-- The windows as a context keeps them: present, absent or filling, without holds (R192, R395 step 4). -/
def savedWin (x : Win) : Win := { x with holds := 0, filler := .none, got := 0 }

/-- The mailbox of a saved crew at the pan of its old cluster; forwarding entries become mailboxes again (R404, R405). -/
def openMail (d : Dev) (id : CrewId) (pan : Nat) : Dev :=
  let d : Dev := { d with pans := d.pans.map (fun e => (e.1, { e.2 with mail := e.2.mail.map (fun m => if m.id = id then { m with fwd := none } else m) })) }
  if (d.pan pan).mail.any (fun m => m.id == id) then d
  else d.setPan pan { d.pan pan with mail := (d.pan pan).mail ++ [(⟨id, [], [], none⟩ : Mail)] }

/-- The collective of a crew that is saved (R422): it has finished, or its engine stops and the attempt is given up. -/
def saveColl (c : Crew) (d : Dev) : Dev :=
  match d.colls.findIdx? (fun e => e.id == c.id) with
  | none => d
  | some i =>
    match d.colls[i]? with
    | none => d
    | some e =>
      if e.phase = 3 ∧ !e.stopped then collCompleteD i d
      else (undefineDst e d).modColl i (fun e => { e with stopped := true, phase := 4, held := [], wants := [], fseqs := [], ready := [] })

/-- The context of a crew (R399), and the device without the crew; its operations of the matrix queue and its words that wait for a
replay go with it, its far acknowledgements stay under other keys. -/
def takeContext (ck : Nat) (d : Dev) : Dev × List Context :=
  match d.crews.get? ck with
  | none => (d, [])
  | some c0 =>
    let d := gateArrivalD ck (saveColl c0 d)
    let c := (d.crews.get? ck).getD c0
    let x := d.cluster c.cluster
    let kept := keptTiles d c
    let tiles := kept.flatMap (fun t => (List.range 64).map (fun r => (t * 64 + r, x.tileRow (c.tiles.getD t 0) r)))
    let inScratch := fun (a : Nat) => decide (c.sbase ≤ a ∧ a < c.sbase + c.ssize)
    let mine := x.mq.filterMap (fun i => (d.mops.get? i).bind (fun o => if o.crew = ck then some (i, o) else none))
    let warps := c.warps.filterMap (fun wk => (d.warps.get? wk).map (fun w => (wk, w)))
    let replays := warps.filterMap (fun e => e.2.replayOp.bind (fun i => (d.ops.get? i).map (fun o => (i, o))))
    let ghosts := (List.range c.warps.length).map (fun i => 2 ^ 30 + d.nextId + i)
    let ghost := fun (k : Nat) => ((List.zip c.warps ghosts).find? (fun e => e.1 == k)).map (·.2)
    let ctx : Context := {
      crew := { c with save := .none, arrivals := [], wins := c.wins.map (fun e => (e.1, savedWin e.2)) }
      warps := warps.map (·.2)
      tiles := tiles
      scratch := (x.scratch.filter (fun b => inScratch b.1)).map (fun b => (b.1 - c.sbase, b.2))
      spoison := (x.spoison.filter (fun b => inScratch (b * 16))).map (fun b => b - c.sbase / 16)
      ops := mine
      replays := replays
      ghosts := ghosts
      full := c.save == .full }
    let d := forgetAsks d (fun a => mine.any (fun m => a == .mop m.1))
    let x := d.cluster c.cluster
    let d := d.setCluster c.cluster { x with
      mq := x.mq.filter (fun i => !mine.any (fun e => e.1 == i))
      holds := x.holds.map (fun h => (h.1, { h.2 with refs := h.2.refs.filter (fun i => !mine.any (fun e => e.1 == i)) })) }
    let d := { d with
      nextId := d.nextId + c.warps.length
      mops := (d.mops.filter (fun e => !mine.any (fun m => m.1 == e.1))).map (fun e =>
        if e.2.crew = ck then (e.1, { e.2 with warp := (ghost e.2.warp).getD e.2.warp, crew := 2 ^ 31 }) else e)
      ops := (d.ops.filter (fun e => !replays.any (fun r => r.1 == e.1))).map (fun e => (e.1, { e.2 with warp := (ghost e.2.warp).getD e.2.warp })) }
    let d := match d.nests.get? c.id.nest with
      | some n => writeImage n ctx d
      | none => d
    (openMail (detachCrew d ck c) c.id c.cluster, [ctx])

/-- A point takes its place among those to be run again, which are handed out oldest first (R396). -/
def insertPt (x : Pt) : List Pt → List Pt
  | [] => [x]
  | y :: r => if older x.idx y.idx then x :: y :: r else y :: insertPt x r

/-- A discarded crew drops its queued operations, exits, and its point is to be run again (R396). -/
def discardCrew (ck : Nat) (d : Dev) : Dev :=
  match d.crews.get? ck with
  | none => d
  | some c =>
    let d := dropStuckJobs (dropMops (c.warps.foldl abandonWarp d) ck c) ck
    let d := exitCrew { d with mops := d.mops.filter (fun m => m.2.crew != ck) } ck c
    match c.point with
    | none => d
    | some pt => { d with nests := d.nests.modify c.id.nest (fun n => { n with
        rerun := insertPt pt n.rerun
        points := n.points.map (fun p => if p.pt.linear = pt.linear then { p with crew := none } else p) }) }

/-- Contexts of the crews that are saved, discarded crews gone. -/
def takeGang : List (Nat × Crew) → Dev → Dev × List Context
  | [], d => (d, [])
  | e :: r, d =>
    if e.2.save = .discard then takeGang r (discardCrew e.1 d)
    else
      let (d, l) := takeContext e.1 d
      let (d, m) := takeGang r d
      (d, l ++ m)

/-- CREW_SAVE (R395): the gang stops, what can be withdrawn is, and once every crew of it is quiet all are saved together (R394). -/
def crewSaveD (ck : Nat) (d : Dev) : Dev :=
  match d.crews.get? ck with
  | none => d
  | some c =>
    let nk := c.id.nest
    if ((d.nests.get? nk).map (·.ending)).getD true then d
    else
      let d := (gangOf d c).foldl (fun d e =>
        if e.2.save == .pending && e.2.point.isSome && e.2.warps.all (fun wk => ((d.warps.get? wk).map stoppedAtPoint).getD true) then
          d.modCrew e.1 (fun c => { c with save := .atPoint })
        else d) d
      let d := ((gangOf d c).filter (fun e => e.2.stopping)).foldl (fun d e => withdrawCrew d e.1 e.2) d
      let gang := gangOf d c
      if !gang.all (fun e => e.2.stopping && saveQuiet d e.1 e.2 && (e.2.save != .discard || leaveReady d [e.2])) then d
      else
        let (d, l) := takeGang gang d
        let held := fun (p : OutPt) => l.any (fun x => x.crew.point == some p.pt)
        let d := if l.isEmpty then d else { d with nests := d.nests.modify nk (fun n => { n with
          saved := n.saved ++ [l]
          points := n.points.map (fun p => if held p then { p with crew := none } else p) }) }
        rakeRun nk d

def execCrewSave (crew : Nat) (s : State) : Host.Outcome State Fault Refusal := eventStep s (crewSaveD crew)

/-! ### Restoring (R398, R404, R405) -/

/-- The virtual lines of an operation that enters the queue again. -/
def mopLines (o : MOp) : List Nat :=
  match o.kind with
  | .mma n a b rows x => mmaLines (mmaRanges n a b rows x)
  | _ => []

/-- A warp at its new place; it goes on after a ppoint, and re-executes or replays what waited (R301, R392, R398). Its queued blocks translate
again, and its words read again (R84, log 81). -/
def restoreWarp (now : Nat) (s : Spot) (i : Nat) (acks : Nat) (w : Warp) : Warp :=
  { w with
    cluster := s.cluster, wslot := s.slots.getD i 0, pipe := (s.first + i) % 4, cslot := s.cslot
    spc := if w.park == .save then w.spc + 4 else w.spc
    park := (match w.park with
      | .save => .run
      | .records _ | .grow .. => .again
      | p => p)
    lpark := (match w.lpark with
      | .replay m o _ => .replay m o []
      | .window .. | .fetch _ => .again
      | p => p)
    queue := w.queue.map (fun b => { b with xs := [], under := false })
    acks := acks, live := 0, bind := none, xs := [], xl := [], rd := Reads.empty, rl := Reads.empty, ready := now + 1, lready := now + 1, rank := 0 }

/-- Writes of a warp that its far end has still to acknowledge, under the key it had meanwhile. -/
def ghostAcks (d : Dev) (g : Nat) : Nat :=
  (d.ops.filter (fun e => e.2.warp == g)).foldl (fun n e => n + (e.2.subs.filter (fun u => u.2.st == .far && u.2.settled)).length) 0

/-- Delivers the mailboxes of a restored crew, as one count per gate, and makes them forwarding entries (R404, R405). -/
def deliverMail (id : CrewId) (ck : Nat) (d : Dev) : Dev :=
  let all := d.pans.flatMap (fun e => e.2.mail.filter (fun m => m.id == id))
  let counts := all.foldl (fun (t : Tab Nat) m => m.counts.foldl (fun t g => t.set g.1 (t.getD g.1 0 + g.2)) t) []
  let d := applyArrivals d ck counts
  let d : Dev := { d with pans := d.pans.map (fun e => (e.1, { e.2 with mail := e.2.mail.map (fun m =>
    if m.id = id then { m with counts := [], held := [], fwd := some ck } else m) })) }
  (all.flatMap (·.held)).foldl (fun d g => d.modCrew ck (·.arrive g)) d

/-- A window that was filling starts again (R192, R398). -/
def restartWin (ck k : Nat) (d : Dev) (n : Nat) : Dev :=
  let x := d.win ck n
  if x.state ≠ .filling then d
  else
    let d := (touchWin (d.setWin ck n { x with state := .absent, asking := 0 }) ck n k x.twaddr x.tblock d.nextId).1
    let y := d.win ck n
    if y.asking = 1 then d.setWin ck n { y with asking := 2 } else d

/-- Puts a saved crew at a place (R398); a collective of it holds its windows again (R423). -/
def restoreCrew (nk : Nat) (x : Context) (s : Spot) (d : Dev) : Dev :=
  let ck := s.cluster * 32 + s.cslot
  let keys := s.slots.map (· + s.cluster * 32)
  let newKey := fun (k : Nat) => (((List.zip x.crew.warps keys).find? (fun e => e.1 == k)).map (·.2)).getD k
  let ghostKey := fun (k : Nat) => (((List.zip x.ghosts keys).find? (fun e => e.1 == k)).map (·.2)).getD k
  let crew := { x.crew with
    cluster := s.cluster, cslot := s.cslot, warps := keys, sbase := s.base, tiles := s.tiles
    wins := x.crew.wins.map (fun e => (e.1, { e.2 with toucher := newKey e.2.toucher })) }
  let acks := x.ghosts.map (ghostAcks d)
  let d := clearTiles (d.setCrew ck crew) s
  let d := (x.warps.mapIdx (fun i w => (i, w))).foldl (fun d e =>
    d.setWarp (keys.getD e.1 0) (restoreWarp d.clock s e.1 (acks.getD e.1 0) e.2)) d
  let c := d.cluster s.cluster
  let outside := fun (a : Nat) => !decide (s.base ≤ a ∧ a < s.base + x.crew.ssize)
  let c := { c with
    tiles := x.tiles.foldl (fun t e => t.set (s.tiles.getD (e.1 / 64) 0 * 64 + e.1 % 64) e.2) c.tiles
    scratch := x.scratch.foldl (fun m b => memWrite m (s.base + b.1) b.2) (c.scratch.filter (fun b => outside b.1))
    spoison := x.spoison.map (· + s.base / 16) ++ c.spoison.filter (fun b => outside (b * 16))
    mq := c.mq ++ x.ops.map (·.1) }
  let d := d.setCluster s.cluster c
  let d := { d with
    mops := x.ops.foldl (fun m e => m.set e.1 { e.2 with
      warp := newKey e.2.warp, crew := ck, started := false, vlines := mopLines e.2, pins := [], holds := [], wants := [], fseqs := [] })
      (d.mops.map (fun e => if x.ghosts.contains e.2.warp then (e.1, { e.2 with warp := ghostKey e.2.warp, crew := ck }) else e))
    ops := x.replays.foldl (fun m e => m.set e.1 { e.2 with warp := newKey e.2.warp, cluster := s.cluster, epoch := 2 ^ 64 })
      (d.ops.map (fun e => (e.1, { e.2 with warp := ghostKey e.2.warp })))
    parts := d.parts.map (fun e => (e.1, { e.2 with groups := e.2.groups.map (fun g => (g.1, { g.2 with
      members := g.2.members.map (fun m => if m.2.2.1 = x.crew.id then (m.1, (ck, m.2.2)) else m) })) }))
    colls := d.colls.map (fun e => if e.id = x.crew.id then { e with crew := ck } else e)
    nests := d.nests.modify nk (fun n => { n with points := n.points.map (fun p =>
      if x.crew.point = some p.pt then { p with crew := some x.crew.id.num } else p) }) }
  let d := deliverMail x.crew.id ck (dropImages d [x.crew.id])
  let d := (crew.wins.map (fun e => (e.1, e.2.toucher))).foldl (fun d e => restartWin ck e.2 d e.1) d
  match d.colls.findIdx? (fun e => e.id == x.crew.id) with
  | some i => (((d.colls[i]?).map (fun e => collWins e.desc)).getD []).foldl (collHold i crew) d
  | none => d

/-- CREW_RESTORE (R398): a saved gang is placed again. -/
def crewRestoreD (nk gang : Nat) (d : Dev) : Dev :=
  match d.nests.get? nk with
  | none => d
  | some n =>
    match n.saved.find? (fun g => g.any (fun x => x.crew.gang == gang)) with
    | none => d
    | some g =>
      if n.ending || n.stopped || (d.part n.part).halted || (n.crewMax != 0 && n.crewMax < (crewsOf d nk).length + g.length) then d
      else
        let fit := fun (x : Context) => (⟨x.warps.map (·.valloc), x.crew.ssize, x.crew.tiles.keys.foldl (fun m t => m + 2 ^ t) 0⟩ : Fit)
        match placeOn d n.part (g.map (fun x => (fit x, restoreCrew nk x))) with
        | none => d
        | some d =>
          rakeRun nk { d with nests := d.nests.modify nk (fun n => { n with saved := n.saved.filter (fun g => !g.any (fun x => x.crew.gang == gang)) }) }

def execCrewRestore (nest gang : Nat) (s : State) : Host.Outcome State Fault Refusal := hartEvent s (crewRestoreD nest gang)

/-! ### Nests (R402) -/

/-- Finished points that wait for their children, points to be run again, and points of saved crews. -/
def waitingPts (n : Nest) : List Pt := (n.points.filter (·.finished)).map (·.pt)
def savedPts (n : Nest) : List Pt := n.saved.flatMap (fun g => g.filterMap (fun x => x.crew.point))

def u32 (x : Int) : Nat := (x % 2 ^ 32).toNat

/-- Four 32-bit words. -/
def quad (a b c e : Nat) : Nat := a + 2 ^ 32 * b + 2 ^ 64 * c + 2 ^ 96 * e

def quadOf (l : List Int) : Nat := quad (u32 (l.getD 0 0)) (u32 (l.getD 1 0)) (u32 (l.getD 2 0)) (u32 (l.getD 3 0))

/-- A row record (R336) in units of 16 bytes. -/
def rowUnits (r : Row) : List Nat :=
  [quad (u32 (r.i.getD 0 0)) (u32 (r.i.getD 1 0)) (u32 (r.i.getD 2 0)) (u32 r.lo), quad (u32 r.hi) (r.issued % 2 ^ 32) (r.pre % 2 ^ 32) 0,
    r.bitmap.toNat]

/-- A list cut or filled with zeros to a length. -/
def padTo (n : Nat) (l : List Nat) : List Nat := (l ++ List.replicate n 0).take n

/-- The save area (R402) in units of 16 bytes. -/
def saveArea (n : Nest) : List Nat :=
  [n.released % 2 ^ 64 + 2 ^ 64 * n.rows.length + 2 ^ 80 * n.depth, quadOf n.hc, quadOf (n.newest.getD []),
    (waitingPts n).length + 2 ^ 16 * n.rerun.length + 2 ^ 32 * (savedPts n).length] ++ List.replicate 60 0 ++
    padTo 768 (n.rows.flatMap rowUnits) ++ padTo 192 ((waitingPts n ++ n.rerun ++ savedPts n).map (fun p => quadOf p.idx))

/-- What the rake that holds a nest, or is to hold it, finds for an address of its save area. -/
def rakeX (d : Dev) (nk p va : Nat) (need : Need) : Xl :=
  if 2 ^ 48 ≤ va then .fault .nonCanon else agentX d (nk / 64 % 4) [] (.rake nk) p va need

/-- The physical addresses of the 1,024 units of a save area, when both its pages allow the access (R402). -/
def areaPlaces (d : Dev) (nk p va : Nat) (need : Need) : Option (List Nat) :=
  match rakeX d nk p va need, rakeX d nk p (va + 16368) need with
  | .hit a _, .hit b _ =>
    some ((List.range 1024).map (fun i => if (va + 16 * i) / 65536 = va / 65536 then a + 16 * i else b + 16 * i - 16368))
  | _, _ => none

/-- The rake asks for the translations that it lacks; a fault is met anew each time. -/
def areaMisses (d : Dev) (nk p va : Nat) (need : Need) : Dev :=
  [va, va + 16368].foldl (fun e a => match rakeX d nk p a need with
    | .miss => addMiss e (nk / 64 % 4) p a (.rake nk)
    | .fault _ => dropAnswers e (nk / 64 % 4) (.rake nk)
    | .hit .. => e) d

/-- Renames a nest's key where children name their parent. -/
def renameParent (old new : Nat) (d : Dev) : Dev :=
  let f := fun (n : Nest) => { n with parent := n.parent.map (fun p => if p.1 = old then (new, p.2) else p) }
  { d with nests := d.nests.map (fun e => (e.1, f e.2)), savedNests := d.savedNests.map (fun e => { e with nest := f e.nest }) }

/-- Step 4 of R402: the save area is written and the slot freed; it waits while a page of the area cannot be written. -/
def saveNest (nk : Nat) (n : Nest) (d : Dev) : Dev :=
  match areaPlaces d nk n.part (recField n.record 40 8) .write with
  | none => areaMisses d nk n.part (recField n.record 40 8) .write
  | some l =>
    if l.any (fun a => storeWaits d n.part a 16) then l.foldl (fun d a => storeFills d n.part a 16) d
    else
    let d := (List.zip l (saveArea n)).foldl (fun d e => agentWriteN d n.part e.1 16 e.2) (dropAnswers d (nk / 64 % 4) (.rake nk))
    renameParent nk (savedKey n) { d with nests := d.nests.erase nk, savedNests := d.savedNests ++ [⟨n, l.headD 0⟩] }

/-- A nest-level save (R402): descendants first; release stops, crews drain or are saved, and the nest leaves when none is resident. A
nest with more than 192 points to keep refuses. -/
def nestPreempt : Nat → Nat → Dev → Dev
  | 0, _, d => d
  | fuel + 1, nk, d =>
    match d.nests.get? nk with
    | none => d
    | some n =>
      let kids := d.nests.filter (fun e => (e.2.parent.map (·.1)) == some nk)
      if n.ending || (d.part n.part).halted then d
      else if !kids.isEmpty then kids.foldl (fun d e => nestPreempt fuel e.1 d) d
      else if 192 < (waitingPts n).length + n.rerun.length + (savedPts n).length then
        (if n.stopped then rakeRun nk (d.setNest nk { n with stopped := false }) else d)
      else if !n.stopped then rakeRun nk (askSave n true (d.setNest nk { n with stopped := true }) (crewsOf d nk))
      else if (crewsOf d nk).isEmpty then saveNest nk n d
      else d

def execNestPreempt (nest : Nat) (s : State) : Host.Outcome State Fault Refusal := hartEvent s (nestPreempt 11 nest)

/-- The identity of a crew of a nest that has moved to another slot (R405). -/
def moveId (ids : List CrewId) (key : Nat) (i : CrewId) : CrewId := if ids.contains i then { i with die := key / 64, slot := key % 64 } else i

/-- A 32-bit field of a unit, signed. -/
def unitInt (u j : Nat) : Int := (BitVec.ofNat 32 (u / 2 ^ (32 * j))).toInt

/-- The row records of a save area. -/
def rowsOf (n : Nest) : Nat → List Nat → List Row
  | 0, _ => []
  | k + 1, u0 :: u1 :: u2 :: r =>
    ⟨(List.range n.outer).map (unitInt u0), unitInt u0 3, unitInt u1 0, u1 / 2 ^ 32 % 2 ^ 32, u1 / 2 ^ 64 % 2 ^ 32, BitVec.ofNat 128 u2⟩ ::
      rowsOf n k r
  | _, _ => []

/-- The nest as its save area, read back, has it (R402): the area holds the indices of points, and no more of them. -/
def reloadNest (n : Nest) (l : List Nat) : Nest :=
  let u := fun (i : Nat) => l.getD i 0
  let pts := waitingPts n ++ n.rerun ++ savedPts n
  let new := (List.zip pts (l.drop 832)).map (fun e => (e.1, { e.1 with idx := (List.range e.1.idx.length).map (unitInt e.2) }))
  let f := fun (p : Pt) => ((new.find? (fun e => e.1 == p)).map (·.2)).getD p
  { n with
    released := u 0 % 2 ^ 64
    rows := rowsOf n (u 0 / 2 ^ 64 % 2 ^ 16) (l.drop 64)
    hc := (List.range 4).map (unitInt (u 1))
    newest := n.newest.map (fun _ => (List.range n.outer).map (unitInt (u 2)))
    points := n.points.map (fun p => { p with pt := f p.pt })
    rerun := n.rerun.map f
    saved := n.saved.map (fun g => g.map (fun x => { x with crew := { x.crew with point := x.crew.point.map f } })) }

/-- A saved nest takes a record slot again, and the rake reads its save area (R402); everything that names its crews follows. -/
def nestBack (e : SavedNest) (d : Dev) : Dev :=
  match rakeFor d ((d.part e.nest.part).firstSpan / 4) with
  | none => d
  | some rake =>
    let key := rake * 64 + ((List.range 64).find? (fun i => (d.nests.get? (rake * 64 + i)).isNone)).getD 0
    match areaPlaces d key e.nest.part (recField e.nest.record 40 8) .read with
    | none => areaMisses d key e.nest.part (recField e.nest.record 40 8) .read
    | some places =>
    if places.any (fun a => (linesOf a 16).any (fun l => agentWaits d e.nest.part (Sub.new l .load))) then d
    else
    let d := places.foldl (fun d a => agentReads d e.nest.part a 16) (dropAnswers d (key / 64 % 4) (.rake key))
    let mv := moveId (savedIds e.nest) key
    let n := reloadNest e.nest (places.map (fun a => devReadN d a 16))
    let n := { n with
      stopped := false
      saved := n.saved.map (fun g => g.map (fun x => { x with crew := { x.crew with id := mv x.crew.id } })) }
    let d : Dev := { d with
      savedNests := d.savedNests.filter (fun x => x.nest.born != n.born)
      arrs := d.arrs.map (fun a => { a with id := mv a.id })
      colls := d.colls.map (fun c => { c with id := mv c.id })
      pans := d.pans.map (fun (p : Nat × Pan) => (p.1, { p.2 with
        mail := p.2.mail.map (fun (m : Mail) => { m with id := mv m.id })
        records := p.2.records.map (fun (r : GRec) => { r with initId := mv r.initId })
        images := p.2.images.map (fun (m : Image) => { m with id := mv m.id }) }))
      parts := d.parts.map (fun (p : Nat × Part) => (p.1, { p.2 with
        spill := p.2.spill.map (fun (m : Image) => { m with id := mv m.id })
        groups := p.2.groups.map (fun g => (g.1, { g.2 with
          members := g.2.members.map (fun m => (m.1, (m.2.1, (mv m.2.2.1, m.2.2.2)))) })) })) }
    rakeRun key (renameParent (savedKey n) key (d.setNest key n))

/-- NEST_RESTORE (R402); a saved nest that an answer has ended is over instead (R407). -/
def nestRestoreD (i : Nat) (d : Dev) : Dev :=
  match d.savedNests[i]? with
  | none => d
  | some e =>
    let n := e.nest
    if n.ending then
      if d.nests.any (fun x => (x.2.parent.map (·.1)) == some (savedKey n)) || !overReady d n then d
      else
        let d := endSaved 10 (savedKey n) d
        if d.savedNests.any (fun x => (x.nest.parent.map (·.1)) == some (savedKey n)) then d else nestOver d (savedKey n) n 2
    else if (d.part n.part).halted then d
    else nestBack e d

def execNestRestore (nest : Nat) (s : State) : Host.Outcome State Fault Refusal := hartEvent s (nestRestoreD nest)

/-! ### Partitions (R403) -/

def crewsIn (d : Dev) (p : Nat) : Tab Crew := d.crews.filter (fun e => e.2.id.part == p)

/-- Nests of a partition with no resident child leave, children before their parents. -/
def swapNests (p : Nat) (d : Dev) : Dev :=
  (d.nests.filter (fun e => e.2.part == p && !e.2.ending && d.nests.all (fun x => (x.2.parent.map (·.1)) != some e.1))).foldl
    (fun d e => match d.nests.get? e.1 with
      | some n => saveNest e.1 n d
      | none => d) d

/-- PARTITION_PREEMPT (R403): the halt; then every gang is saved in full, one that was to be discarded too, and when no crew is left every
nest is written out. -/
def partitionPreemptD (p : Nat) (d : Dev) : Dev :=
  if !(d.part p).halted then
    let d := (List.range 32).foldl (fun d s => match (d.slot s).queue with
      | some q => if (d.queue q).part = p then unmap d s else d
      | none => d) (d.setPart p { d.part p with halted := true })
    { d with crews := d.crews.map (fun e =>
        if e.2.id.part = p then (e.1, { e.2 with save := .full, saveAt := d.clock }) else e) }
  else
    let d := (crewsIn d p).foldl (fun d e => crewSaveD e.1 d) d
    if (crewsIn d p).isEmpty then times (swapNests p) 11 d else d

def execPartitionPreempt (part : Nat) (s : State) : Host.Outcome State Fault Refusal := hartEvent s (partitionPreemptD part)

/-- PARTITION_RESTORE (R403): the nests that the swap took come back, and with the last of them crews and queues can be placed and mapped
again. -/
def partitionRestoreD (p : Nat) (d : Dev) : Dev :=
  if !(d.part p).halted || !(crewsIn d p).isEmpty then d
  else
    let away := fun (d : Dev) => d.savedNests.filter (fun e => e.nest.part == p && !e.nest.stopped && !e.nest.ending)
    let b := (away d).foldl (fun d e => nestBack e d) d
    if !(away b).isEmpty then b
    else
      let back := b.nests.keys.filter (fun k => !d.nests.keys.contains k)
      back.foldl (fun d k => rakeRun k d) (b.setPart p { b.part p with halted := false, due := true })

def execPartitionRestore (part : Nat) (s : State) : Host.Outcome State Fault Refusal := hartEvent s (partitionRestoreD part)

/-! ### Arrivals that find another crew (R404, R405) -/

/-- A mailbox counts an arrival; a full count takes none, and the arrival is kept. -/
def Mail.take (m : Mail) (g : Nat) : Mail :=
  let n := m.counts.getD g 0
  if n < 2 ^ 32 - 1 then { m with counts := m.counts.set g (n + 1) } else { m with held := m.held ++ [g] }

/-- ARRIVAL_RETURN (R405): counted, forwarded, or discarded when the crew has exited. -/
def arrivalReturnD (i : Nat) (d : Dev) : Dev :=
  match d.arrs[i]? with
  | none => d
  | some a =>
    let d := { d with arrs := d.arrs.eraseIdx i }
    match (d.pan a.cluster).mail.find? (fun m => m.id == a.id) with
    | none => d
    | some m =>
      match m.fwd with
      | none => d.setPan a.cluster { d.pan a.cluster with mail := (d.pan a.cluster).mail.map (fun x => if x.id = a.id then x.take a.gate else x) }
      | some ck => sendArrival d ck a.id a.gate

def execArrivalReturn (pos : Nat) (s : State) : Host.Outcome State Fault Refusal := eventStep s (arrivalReturnD pos)

end Sys2Proof.Machine
end

