-- ==== Sys2Proof/Machine/Shake.lean ====
section
/-!
DEFINITION. SHAKE256, which R435 names and the spec does not define: as FIPS 202 gives it (PRESUMED, log 8). A lane is a number below
2^64; lane x + 5y of the state is A[x, y].
-/
namespace Sys2Proof.Machine

def rotl64 (v : W64) (n : Nat) : W64 := v.rotateLeft n

def kcRound : List Nat :=
  [0x1, 0x8082, 0x800000000000808A, 0x8000000080008000, 0x808B, 0x80000001, 0x8000000080008081, 0x8000000000008009, 0x8A, 0x88,
   0x80008009, 0x8000000A, 0x8000808B, 0x800000000000008B, 0x8000000000008089, 0x8000000000008003, 0x8000000000008002,
   0x8000000000000080, 0x800A, 0x800000008000000A, 0x8000000080008081, 0x8000000000008080, 0x80000001, 0x8000000080008008]

def kcRot : List Nat := [0, 1, 62, 28, 27, 36, 44, 6, 55, 20, 3, 10, 43, 25, 39, 41, 45, 15, 21, 8, 18, 2, 61, 56, 14]

def kcAt (a : List W64) (x y : Nat) : W64 := a.getD (x % 5 + 5 * (y % 5)) 0

/-- One round of Keccak-f[1600]. -/
def keccakRound (a : List W64) (rc : Nat) : List W64 :=
  let c := (List.range 5).map (fun x => kcAt a x 0 ^^^ kcAt a x 1 ^^^ kcAt a x 2 ^^^ kcAt a x 3 ^^^ kcAt a x 4)
  let d := fun (x : Nat) => c.getD ((x + 4) % 5) 0 ^^^ rotl64 (c.getD ((x + 1) % 5) 0) 1
  let t := (List.range 25).map (fun i => rotl64 (a.getD i 0 ^^^ d (i % 5)) (kcRot.getD i 0))
  -- the lane that moves to x, y comes from x + 3y, x
  let b := (List.range 25).map (fun i => kcAt t (i % 5 + 3 * (i / 5)) (i % 5))
  let e := (List.range 25).map (fun i => kcAt b (i % 5) (i / 5) ^^^ (~~~ (kcAt b (i % 5 + 1) (i / 5)) &&& kcAt b (i % 5 + 2) (i / 5)))
  e.mapIdx (fun i v => if i = 0 then v ^^^ BitVec.ofNat 64 rc else v)

def keccakF (a : List W64) : List W64 := kcRound.foldl keccakRound a

/-- The little-endian number of bytes. -/
def bytesNum : List Byte → Nat
  | [] => 0
  | b :: r => b.toNat + 256 * bytesNum r

/-- Absorbs blocks of 136 bytes. -/
def absorb : Nat → List Byte → List W64 → List W64
  | 0, _, a => a
  | n + 1, l, a =>
    absorb n (l.drop 136) (keccakF (a.mapIdx (fun i v => if i < 17 then v ^^^ BitVec.ofNat 64 (bytesNum ((l.drop (8 * i)).take 8)) else v)))

/-- The padding of SHAKE. -/
def shakePad (l : List Byte) : List Byte :=
  let z := 135 - l.length % 136
  if z = 0 then l ++ [0x9F] else l ++ [0x1F] ++ List.replicate (z - 1) 0 ++ [0x80]

/-- SHAKE256 with 512 bits of output. -/
def shake512 (l : List Byte) : BitVec 512 :=
  let p := shakePad l
  let a := absorb (p.length / 136) p (List.replicate 25 0)
  BitVec.ofNat 512 ((a.take 8).foldr (fun v n => v.toNat + 2 ^ 64 * n) 0)

/-- The 64 bytes of a measurement. -/
def measBytes (m : BitVec 512) : List Byte := (List.range 64).map (fun i => m.extractLsb' (8 * i) 8)

/-- extend of R435. -/
def extendMeas (m : BitVec 512) (data : List Byte) : BitVec 512 := shake512 (measBytes m ++ measBytes (shake512 data))

end Sys2Proof.Machine
end

