-- ==== Sys2Proof/Machine/System.lean ====
section
/-!
DEFINITION. Status registers (R200 to R206), cache control (R117 to R119), the system words (R388), and the steps by which the
driver and the fault service answer traps and faults: TRAP_RESUME, TANS_WRITE, FRES_WRITE, TRR_WRITE (R384 to R391, R430).
-/
namespace Sys2Proof.Machine

/-! ### Status registers -/

/-- IDENT (R431). -/
def ident : W64 := Config.serial ++ 0x5934#16 ++ Config.stepping ++ (if Config.formM then 2#8 else 1#8)

/-- WID (R204). -/
def widOf (d : Dev) (w : Warp) : W64 :=
  BitVec.ofNat 64 (d.partOf w * 2 ^ 40 + w.cluster * 2 ^ 32 + w.pipe * 2 ^ 24 + w.cslot * 2 ^ 16 +
    ((d.crewOf w).map (·.cidx)).getD 0 * 2 ^ 12 + w.wcrew * 2 ^ 8 + w.wslot)

/-- CTRS (R206). -/
def ctrsOf (w : Warp) : W64 :=
  BitVec.ofNat 64 (w.outG.length + w.outX.length * 2 ^ 16 + w.outA.length * 2 ^ 32 + w.outT.length * 2 ^ 48)

/-- CYCLE (R206). -/
def cycleOf (d : Dev) (w : Warp) : W64 :=
  let p := d.part (d.partOf w)
  BitVec.ofNat 64 (if p.enabled then d.clock - p.started else 0)

/-- The value of a status register; none when the number is unassigned (R200). -/
def statusRead (d : Dev) (w : Warp) (n : Nat) : Option W64 :=
  match n with
  | 0 => some 64
  | 1 => some (widOf d w)
  | 2 => some w.wstat
  | 3 => some w.nmode
  | 4 => some (BitVec.ofNat 64 w.lanes)
  | 5 => some (BitVec.ofNat 64 w.valloc)
  | 6 => some (ctrsOf w)
  | 7 => some (cycleOf d w)
  | 8 => some (BitVec.ofNat 64 (((d.nestOf w).map Nest.lcb).getD 0))
  | 9 => some (BitVec.ofNat 64 (((d.nestOf w).map Nest.scb).getD 0))
  | 10 => some (BitVec.ofNat 64 (((d.nestOf w).map Nest.param).getD 0))
  | 11 => some ident
  | 48 | 49 | 50 | 51 => some 0
  | _ => none

/-- SRD (R201). -/
def execSrd (f a b : BitVec 6) (s : State) : Host.Outcome State Fault Refusal :=
  scalarWord s (checked [ckZero (a == 0#6)] (interlock [f.toNat] (fun d k w =>
    match statusRead d w b.toNat with
    | none => illegal d k w (.illOpnd, 6)
    | some v => if b = 2#6 ∧ !lanesDrained w then stall d k w else done d k (w.setS f.toNat v) 4)))

/-- SWR (R201, R202, R203, R205). -/
def execSwr (f a b : BitVec 6) (s : State) : Host.Outcome State Fault Refusal :=
  scalarWord s (checked [ckZero (f == 0#6)] (interlock [a.toNat] (fun d k w =>
    let v := w.s a.toNat
    match b.toNat with
    | 2 =>
      if bits v 63 9 ≠ 0 then illegal d k w (.illOpnd, 5)
      else if lanesDrained w then done d k { w with wstat := v } 4 else stall d k w
    | 3 => if bits v 63 21 ≠ 0 then illegal d k w (.illOpnd, 5) else done d k { w with nmode := v } 4
    | 4 => if v = 0 ∨ 64 < v.toNat then illegal d k w (.illOpnd, 5) else done d k { w with lanes := v.toNat } 4
    | _ => illegal d k w (.illOpnd, 6))))

/-! ### Cache control -/

/-- Translates every address of a list for a scalar word, in order, and goes on with the physical addresses; an address above the virtual
space is NONCANON (R70). -/
def withXlates (d : Dev) (k : Nat) (w : Warp) (need : Need) (kind : Nat) (f : List Nat → Dev) : List Nat → List Nat → Dev
  | [], acc => f acc.reverse
  | va :: r, acc => if 2 ^ 48 ≤ va then protFault d k w .nonCanon else withXlate d k w va need kind (fun pa _ => withXlates d k w need kind f r (pa :: acc))

/-- The zero bytes of a whole line. -/
def zeroBytes : List (Nat × Byte × Byte) := (List.range 64).map (fun i => (i, 0, 255))

/-- The four commands of R117. -/
inductive CacheOp where
  | clean | flush | drop | zero
  deriving DecidableEq, Repr

def CacheOp.act : CacheOp → Act
  | .clean => .clean
  | .flush => .flush
  | .drop => .drop
  | .zero => .zero

/-- cache_op of R118 over the physical lines of the range, as (virtual page, line) in address order; a line that two pages name is acted on
once. -/
def cacheLines (op : CacheOp) (d : Dev) (k : Nat) (w : Warp) (at_ : List (Nat × Nat)) : Dev :=
  let lines := distinct (at_.map (·.2))
  let d := match op with
    | .flush | .drop => lines.foldl (fun d l => l1Drop d w.cluster l) d
    | .zero => lines.foldl (fun d l => l1Store d w.cluster l 0 zeroBytes) d
    | .clean => d
  let far := fun (l : Nat) => isPeer (l * 64) || isHost (l * 64)
  let sent := match op with
    | .drop => []
    | .zero => lines
    | _ => lines.filter (fun l => !far l)
  let id := d.nextId
  let w := w.raiseOut .g id
  if sent.isEmpty then done { d with nextId := id + 1 } k (w.returned .g id) 4
  else
    let o := { MemOp.new k w (d.partOf w) .scalar .g .cache w.spc.toNat 0 with
      subs := sent.foldl (fun t l => t.set l { Sub.new l op.act with pages := distinct ((at_.filter (fun e => e.2 == l)).map (·.1)) }) []
      pages := distinct (at_.map (·.1)) }
    let w := { w with acks := w.acks + (sent.filter far).length }
    send (done { d with nextId := id + 1, ops := d.ops.set id o } k w 4) w.cluster (sent.map (fun l => (id, l)))

/-- A cache command (R117, R118). -/
def cacheWord (op : CacheOp) (a : BitVec 6) : Dev → Nat → Warp → Dev :=
  checked [ckA (decide (a.toNat < 63))] (interlock [a.toNat, a.toNat + 1] (fun d k w =>
    let va := w.s a.toNat
    let len := (w.s (a.toNat + 1)).toNat % 2 ^ 32
    if len = 0 then done d k w 4
    else if op = .zero ∧ va.toNat % 64 ≠ 0 then scalarTrap d k w 4 .align va []
    else if op = .zero ∧ len % 64 ≠ 0 then scalarTrap d k w 4 .align (BitVec.ofNat 64 len) []
    else withVa d k w va (fun v =>
      let lo := v / 64 * 64
      let hi := (v + len + 63) / 64 * 64
      let pages := (List.range ((hi - 1) / 65536 - lo / 65536 + 1)).map (· + lo / 65536)
      withXlates d k w (if op = .zero then .write else .read) (if op = .zero then 1 else 0) (fun pas =>
        let lines := (List.zip pages pas).flatMap (fun e =>
          let from_ := Nat.max lo (e.1 * 65536)
          let upto := Nat.min hi ((e.1 + 1) * 65536)
          (List.range ((upto - from_) / 64)).map (fun i => (e.1, (e.2 + (from_ - e.1 * 65536)) / 64 + i)))
        if mustWait d k w (lines.map (·.2)) || w.full .g then stall d k w else cacheLines op d k w lines)
        (pages.map (· * 65536)) [])))

/-- CCLEAN, CFLUSH, CDROP, CZERO (R117, R118). -/
def execCclean (a : BitVec 6) (s : State) : Host.Outcome State Fault Refusal := scalarWord s (cacheWord .clean a)
def execCflush (a : BitVec 6) (s : State) : Host.Outcome State Fault Refusal := scalarWord s (cacheWord .flush a)
def execCdrop (a : BitVec 6) (s : State) : Host.Outcome State Fault Refusal := scalarWord s (cacheWord .drop a)
def execCzero (a : BitVec 6) (s : State) : Host.Outcome State Fault Refusal := scalarWord s (cacheWord .zero a)

/-! ### System words -/

/-- TRAP (R388). -/
def execTrap (f a b : BitVec 6) (s : State) : Host.Outcome State Fault Refusal :=
  scalarWord s (checked [ckZero (f == 0#6 && a == 0#6)] (fun d k w =>
    if lanesDone w then scalarTrap d k w 4 .user (b.setWidth 64) [] else stall d k w))

/-- SYSC (R388). -/
def execSysc (f a b : BitVec 6) (s : State) : Host.Outcome State Fault Refusal :=
  scalarWord s (checked [ckZero (f == 0#6 && a == 0#6)] (interlock [1, 2, 3, 4] (fun d k w =>
    if lanesDone w then scalarTrap d k w 4 .sysc (b.setWidth 64) [w.s 1, w.s 2, w.s 3, w.s 4] else stall d k w)))

/-- HALT (R388). -/
def execHalt (f a b : BitVec 6) (s : State) : Host.Outcome State Fault Refusal :=
  scalarWord s (checked [ckZero (f == 0#6 && a == 0#6 && b == 0#6)] (fun d k w => scalarTrap d k w 4 .halt 0 []))

/-! ### Answers -/

/-- TRAP_RESUME (R384): the record of a RESUME trap has been written, and those of later traps of the warp. -/
def trapResumeD (k : Nat) (d : Dev) : Dev :=
  match (d.warps.get? k).bind (·.stop) with
  | some t => if t.written && t.later.isEmpty && (t.cls == .routine || t.cls == .dataErr) then resumeWarp d k else d
  | none => d

def execTrapResume (k : Nat) (s : State) : Host.Outcome State Fault Refusal := eventStep s (trapResumeD k)

/-- A warp stopped for the answer that TSEQ[31:0] names (R387). -/
def awaits (part : Nat) (d : Dev) (n : Nat) (w : Warp) : Bool :=
  match w.stop with
  | some t => t.written && (t.cls == .user || t.cls == .sysc) && t.tseq.map (· % 2 ^ 32) == some n && d.partOf w == part
  | none => false

/-- A saved warp keeps its stop (R407). -/
def awaitsSaved (n : Nat) (w : Warp) : Bool :=
  match w.stop with
  | some t => t.written && (t.cls == .user || t.cls == .sysc) && t.tseq.map (· % 2 ^ 32) == some n
  | none => false

/-- The answer of a resumed warp: for SYSC, s1 := TVAL (R387, R388); while the record of a later trap is unwritten the warp waits for it as
after a RESUME trap (R384). -/
def answerWarp (tval : W64) (now : Nat) (w : Warp) : Warp :=
  let w := if (w.stop.map (·.cls)) == some .sysc then w.setS 1 tval else w
  match w.stop with
  | some t =>
    if t.later.isEmpty then { w with stop := none, ready := now + 1, lready := now + 1 } else { w with stop := some { t with cls := .dataErr } }
  | none => w

/-- TANS_WRITE (R387, R407). -/
def tansWriteD (p : Nat) (v : W64) (d : Dev) : Dev :=
  let d := d.setPart p { d.part p with tans := v }
  if bits v 63 34 ≠ 0 then d
  else
    let n := bits v 31 0
    let tval := (d.part p).tval
    let saved := fun (nest : Nest) => nest.part == p && nest.saved.any (fun g => g.any (fun c => c.warps.any (awaitsSaved n)))
    match d.warps.find? (fun e => awaits p d n e.2) with
    | some (k, w) =>
      match bits v 33 32 with
      | 0 => d.modWarp k (answerWarp tval d.clock)
      | 1 => endNest d (((d.crewOf w).map (·.id.nest)).getD 0)
      | _ => d
    | none =>
      let all := d.nests.map (fun e => (e.1, e.2)) ++ d.savedNests.map (fun e => (savedKey e.nest, e.nest))
      match all.find? (fun e => saved e.2), bits v 33 32 with
      | some (nk, _), 0 =>
        let f := fun (x : Nest) => { x with saved := x.saved.map (fun g => g.map (fun c =>
          { c with warps := c.warps.map (fun w => if awaitsSaved n w then answerWarp tval d.clock w else w) })) }
        { d with
          nests := d.nests.modify nk f
          savedNests := d.savedNests.map (fun e => if savedKey e.nest = nk then { e with nest := f e.nest } else e) }
      | some (nk, _), 1 => endNest d nk
      | _, _ => d

def execTansWrite (p : Nat) (v : W64) (s : State) : Host.Outcome State Fault Refusal := eventStep s (tansWriteD p v)

/-- Removes a resolved record from a warp's waits (R80, R81, R391). -/
def Warp.resolved (w : Warp) (now q : Nat) : Warp :=
  let w := match w.park with
    | .records l => if l.contains q then
        (if (l.filter (· != q)).isEmpty then { w with park := .again, ready := now, xs := [] } else { w with park := .records (l.filter (· != q)) })
      else w
    | _ => w
  match w.lpark with
  | .replay m o l => { w with lpark := .replay m o (l.filter (· != q)), lready := if l.contains q then now else w.lready }
  | .window ws l f => { w with lpark := .window ws (l.filter (· != q)) f, lready := if l.contains q then now else w.lready }
  | .fetch l => { w with lpark := .fetch (l.filter (· != q)), lready := if l.contains q then now else w.lready }
  | _ => w

/-- The scalar thread waits on the record. -/
def Warp.threadWaits (w : Warp) (q : Nat) : Bool :=
  match w.park with
  | .records l => l.contains q
  | _ => false

/-- The lane stream waits on the record: STREAM and LMASK of the trap that its failure is. A replay fails in its lanes; the ask of a window is
a multicast fill's; a code fetch fails for the word as a whole (R386). -/
def Warp.laneWaitsOn (w : Warp) (q : Nat) : Option (Stream × Mask) :=
  match w.lpark with
  | .replay m _ l => if l.contains q then some (.lane, m) else none
  | .window _ l _ => if l.contains q then some (.engine, 0) else none
  | .fetch l => if l.contains q then some (.lane, 0) else none
  | _ => none

/-- A saved warp's failure: its record goes to the fault service, and its nest ends (R391, R407). -/
def savedFail (d : Dev) (p nk : Nat) (n : Nest) (w : Warp) (stream : Stream) (waddr block : Nat) (lmask : Mask) : Dev :=
  endNest (postTrap d p ⟨0, BitVec.ofNat 64 waddr, BitVec.ofNat 64 block, w.spc, lmask, BitVec.ofNat 64 FCode.notMapped.num,
    BitVec.ofNat 64 n.va, .prot, stream, w.cluster, w.wslot, p, w.cslot, [], d.clock⟩) nk

/-- The failures of a saved crew's agents that wait on the record: threads, lane words, and operations of the matrix queue. -/
def contextFail (p q nk : Nat) (n : Nest) (d : Dev) (c : Context) : Dev :=
  let d := c.warps.foldl (fun d w =>
    let b := ((w.queue.head?).map (·.base)).getD 0
    let d := if w.threadWaits q then savedFail d p nk n w .scalar w.spc.toNat 0 0 else d
    match w.laneWaitsOn q with
    | some (st, m) => savedFail d p nk n w st (b + 12 * w.lword) b m
    | none => d) d
  c.ops.foldl (fun d e => match (c.crew.warps.findIdx? (· == e.2.warp)).bind (fun i => c.warps[i]?) with
    | some w => if e.2.fseqs.contains q then savedFail d p nk n w .matrix e.2.waddr 0 0 else d
    | none => d) d

/-- A failed resolution is a protection fault of every agent that waits on the record (R391). -/
def failRecord (d : Dev) (p q : Nat) : Dev :=
  let code := BitVec.ofNat 64 FCode.notMapped.num
  let d := d.warps.foldl (fun d e =>
    if d.partOf e.2 ≠ p then d
    else
      let d := if e.2.threadWaits q then scalarTrap d e.1 e.2 4 .prot code [] else d
      match e.2.laneWaitsOn q, e.2.queue with
      | some (st, m), b :: _ => takeTrap d e.1 ((d.warps.get? e.1).getD e.2) st .prot (b.base + 12 * e.2.lword) b.base m code []
      | _, _ => d) d
  let d := d.mops.foldl (fun d e =>
    if e.2.fseqs.contains q then
      match d.warps.get? e.2.warp with
      | some w => if d.partOf w = p then takeTrap d e.2.warp w .matrix .prot e.2.waddr 0 0 code [] else d
      | none => d
    else d) d
  let d := d.engines.foldl (fun d e => e.2.jobs.foldl (fun d j =>
    match d.crews.get? j.crew with
    | some c =>
      if j.fseqs.contains q ∧ c.id.part = p then
        match c.wins.get? j.win with
        | some x =>
          match d.warps.get? x.toucher with
          | some w => takeTrap d x.toucher w .engine .prot x.twaddr x.tblock 0 code []
          | none => d
        | none => d
      else d
    | none => d) d) d
  let d := d.colls.foldl (fun d e =>
    if e.fseqs.contains q ∧ e.part = p then
      match (d.crews.get? e.crew).bind (fun c => if c.id = e.id then c.warps[e.cwarp]? else none) with
      | some wk => match d.warps.get? wk with
        | some w => takeTrap d wk w .engine .prot e.waddr 0 0 code []
        | none => d
      | none => d
    else d) d
  let all := d.nests.map (fun e => (e.1, e.2)) ++ d.savedNests.map (fun e => (savedKey e.nest, e.nest))
  let d := all.foldl (fun d e =>
    if e.2.part ≠ p then d else (e.2.saved.flatMap id).foldl (contextFail p q e.1 e.2) d) d
  let hit := fun (e : Nat × Queue) => e.2.fseq == some q && e.2.part == p
  let d := if d.queues.any hit then d.raise (4 * p + 1) else d
  { d with queues := d.queues.map (fun e => if hit e then (e.1, { e.2 with state := 2, err := 3, fseq := none }) else e) }

/-- FRES_WRITE (R391): action 0 lets every waiting agent proceed, action 1 makes the fault a protection fault. -/
def fresWriteD (p : Nat) (v : W64) (d : Dev) : Dev :=
  let x := d.part p
  let d := d.setPart p { x with fres := v }
  match x.open_.find? (fun r => r.fseq % 2 ^ 32 = bits v 31 0) with
  | none => d
  | some r =>
    let q := r.fseq
    let d := if bit v 32 then failRecord d p q else d
    let d := d.setPart p { d.part p with open_ := (d.part p).open_.filter (fun e => e.fseq != q) }
    let mine := fun (w : Warp) => d.partOf w == p
    { d with
      warps := d.warps.map (fun e => if mine e.2 then (e.1, e.2.resolved d.clock q) else e)
      mops := d.mops.map (fun e => if ((d.warps.get? e.2.warp).map mine) == some true then
        (e.1, { e.2 with fseqs := e.2.fseqs.filter (· != q) }) else e)
      engines := d.engines.map (fun e => (e.1, { e.2 with jobs := e.2.jobs.map (fun j =>
        if ((d.crews.get? j.crew).map (·.id.part)) == some p then { j with fseqs := j.fseqs.filter (· != q) } else j) }))
      colls := d.colls.map (fun e => if e.part = p then { e with fseqs := e.fseqs.filter (· != q) } else e)
      queues := d.queues.map (fun e => if e.2.part = p ∧ e.2.fseq = some q then (e.1, { e.2 with fseq := none, blocked := false }) else e) }

def execFresWrite (p : Nat) (v : W64) (s : State) : Host.Outcome State Fault Refusal := eventStep s (fresWriteD p v)

/-- TRR_WRITE (R430): the driver has consumed records; held ones are written. -/
def trrWriteD (p : Nat) (fault : Bool) (v : W64) (d : Dev) : Dev :=
  let x := d.part p
  flushRecords (d.setPart p (if fault then { x with frr := v } else { x with trr := v })) p

def execTrrWrite (p : Nat) (fault : Bool) (v : W64) (s : State) : Host.Outcome State Fault Refusal := eventStep s (trrWriteD p fault v)

end Sys2Proof.Machine
end

