-- ==== Sys2Proof/Machine/Boot.lean ====
section
/-!
DEFINITION. Partitions, the host view, the measured start, power and training (R424 to R442, R412's CWSELF): steps that the driver, the
host and the Pier's service harts make.
-/
namespace Sys2Proof.Machine

/-- A step on the boot registers and the device. -/
def bootStep (s : State) (f : Boot → Dev → Boot × Dev) : Host.Outcome State Fault Refusal :=
  let r := f s.boot s.dev
  .next { s with boot := r.1, dev := r.2 }

/-! ### Partitions (R424 to R427) -/

def pcFirst (v : W64) : Nat := bits v 5 2
def pcLog (v : W64) : Nat := bits v 8 6
def pcRslots (v : W64) : Nat := bits v 23 16
def pcNquota (v : W64) : Nat := bits v 31 24
def pcQslots (v : W64) : Nat := bits v 37 32
def pcTsave (v : W64) : Nat := bits v 63 48

/-- The sum of a field over the partitions that satisfy a test, with a new value for p. -/
def sumParts (d : Dev) (p : Nat) (v : W64) (use : W64 → Bool) (f : W64 → Nat) : Nat :=
  (List.range 16).foldl (fun n q =>
    let x := if q = p then v else (d.part q).pctl
    if use x then n + f x else n) 0

/-- [lo, hi) meets populated HBM (R65). -/
def meetsHbm (lo hi : Nat) : Bool :=
  let h := Nat.min hi (2 ^ 40)
  lo < h && (lo % 2 ^ 38 < 0x3000000000 || lo / 2 ^ 38 != (h - 1) / 2 ^ 38)

/-- A window's HBM part overlaps an HBM window of another partition that is enabled or being zeroed (R426 to R428). -/
def windowTaken (d : Dev) (p : Nat) (v : W64) : Bool :=
  d.parts.any (fun e => e.1 != p && (e.2.enabled || e.2.zeroing) && e.2.pwin.any (fun w => pwinV w.2 &&
    meetsHbm (Nat.max (pwinBase v) (pwinBase w.2)) (Nat.min (pwinBase v + pwinSize v) (pwinBase w.2 + pwinSize w.2))))

/-- The spans of two PCTL values overlap. -/
def spansMeet (v x : W64) : Bool := decide (pcFirst v < pcFirst x + 2 ^ pcLog x ∧ pcFirst x < pcFirst v + 2 ^ pcLog v)

/-- A write of PCTL that R425 refuses, or that would enable a partition over memory of another (R428; log 70). A partition that is being
disabled (R427) keeps its spans and its other fields until that is done, and cannot be enabled before. -/
def pctlBad (d : Dev) (p : Nat) (v : W64) : Bool :=
  let old := (d.part p).pctl
  4 < pcLog v || pcFirst v % 2 ^ pcLog v != 0 || bits v 47 38 != 0 || bits v 15 9 != 0 || 1000 < pcTsave v ||
    (List.range 16).any (fun q => q != p && ((d.part q).enabled || (d.part q).zeroing) && spansMeet v (d.part q).pctl) ||
    32 < sumParts d p v (fun _ => true) pcQslots || 224 < sumParts d p v (fun _ => true) pcRslots ||
    256 < sumParts d p v (fun x => bit x 0) pcNquota ||
    ((bit old 0 || (d.part p).zeroing) && bits old 47 2 != bits v 47 2) ||
    (!bit old 0 && bit v 0 && ((d.part p).zeroing || (d.part p).pwin.any (fun w => pwinV w.2 && windowTaken d p w.2)))

/-- Step 1 of R427: every nest ends; the other steps are to come, and the queues stand still meanwhile (log 70). -/
def disablePart (d : Dev) (p : Nat) : Dev :=
  let d := (d.nests.filter (fun e => e.2.part == p)).foldl (fun d e => endNest d e.1) d
  let d := (d.savedNests.filter (fun e => e.nest.part == p)).foldl (fun d e => endNest d (savedKey e.nest)) d
  { d with parts := d.parts.modify p (fun x => { x with zeroing := true, halted := false }) }

/-- Step 2 of R427: every queue of the partition is disabled. -/
def disableQueues (d : Dev) (p : Nat) : Dev :=
  let d := (List.range 32).foldl (fun d s => match (d.slot s).queue with
    | some q => if (d.queue q).part = p then unmap d s else d
    | none => d) d
  { d with queues := d.queues.map (fun e => if e.2.part = p then (e.1, { e.2 with state := 0, pending := false }) else e) }

/-- A partition is created: the copies of its routine map start with their RAM entries invalid (R133). -/
def freshMaps (d : Dev) (p : Nat) : Dev :=
  let x := d.part p
  let mine := fun (k : Nat) => decide (x.basePan ≤ k ∧ k < x.basePan + x.pans)
  { d with
    pans := d.pans.map (fun e => if mine e.1 then (e.1, { e.2 with rmap := [] }) else e)
    clusters := d.clusters.map (fun e => if mine e.1 then (e.1, { e.2 with rmap := [] }) else e)
    parts := d.parts.set p { x with rmap := [], code := [] } }

/-- PCTL_WRITE (R425, R432) of one of the 16 partitions (R4): ignored until features are agreed; refused with REJ, or accepted. -/
def pctlWriteD (p : Nat) (v : W64) (d : Dev) : Dev :=
  let x := d.part p
  if pctlBad d p v then d.setPart p { x with pctl := x.pctl ||| 2#64 }
  else
    let was := bit x.pctl 0
    let d1 := d.setPart p { x with pctl := v &&& ~~~ 2#64, started := if bit v 0 && !was then d.clock else x.started }
    if was && !bit v 0 then disablePart d1 p else if bit v 0 && !was then freshMaps d1 p else d1

def execPctlWrite (part : Nat) (v : W64) (s : State) : Host.Outcome State Fault Refusal :=
  eventStep s (if hostReady s.boot ∧ part < 16 then pctlWriteD part v else id)

/-- A write of a window that R426 refuses. The memory of a partition that is being zeroed is not granted, and its windows stand until then
(R427; log 70). -/
def pwinBad (d : Dev) (p : Nat) (v : W64) : Bool :=
  let lo := pwinBase v
  let hi := lo + pwinSize v
  bits v 63 52 != 0 || (d.part p).zeroing || (pwinV v && (pwinSize v == 0 || 2 ^ 52 < hi || (lo < 2 ^ 41 && 2 ^ 40 < hi) || windowTaken d p v))

/-- PWIN_WRITE (R426), of a window of one of the 16 partitions (R4). -/
def pwinWriteD (p win : Nat) (v : W64) (d : Dev) : Dev :=
  let x := d.part p
  if 8 ≤ win ∨ 16 ≤ p then d
  else if pwinBad d p v then d.setPart p { x with pctl := x.pctl ||| 2#64 }
  else d.setPart p { x with pwin := x.pwin.set win v, pctl := x.pctl &&& ~~~ 2#64 }

def execPwinWrite (part win : Nat) (v : W64) (s : State) : Host.Outcome State Fault Refusal := eventStep s (pwinWriteD part win v)

/-- The device addresses of HBM that a partition's windows hold. -/
def ownHbm (d : Dev) (p a : Nat) : Bool := isHbm a && inWindows d p a 1

/-- ZEROING_COMPLETE (R427 steps 2 to 5): once the nests have ended, the queues are disabled, lines, translations, table base (R72), routine
map and groups go, and the memory holds zeros. -/
def zeroingD (p : Nat) (d : Dev) : Dev :=
  if !(d.part p).zeroing || d.nests.any (fun e => e.2.part == p) || d.savedNests.any (fun e => e.nest.part == p) then d
  else
    let d := disableQueues d p
    let x := d.part p
    let own := ownHbm d p
    let mine := fun (k : Nat) => decide (x.basePan ≤ k ∧ k < x.basePan + x.pans)
    { d with
      mem := d.mem.filter (fun c => !own c.1)
      poison := d.poison.filter (fun s => !own (s * 16))
      hbmErr := d.hbmErr.filter (fun s => !own (s * 16))
      pans := d.pans.map (fun e => (e.1, { e.2 with
        lines := e.2.lines.filter (fun l => !own (l.1 * 64))
        fwd := e.2.fwd.filter (fun f => !own (f.1 * 64))
        records := if mine e.1 then [] else e.2.records
        pcarve := if mine e.1 then e.2.pcarve &&& ~~~ 0x1FF#64 else e.2.pcarve
        draining := if mine e.1 then none else e.2.draining
        shadow := if mine e.1 then 0 else e.2.shadow
        images := if mine e.1 then [] else e.2.images
        rmap := if mine e.1 then [] else e.2.rmap }))
      clusters := d.clusters.map (fun e => (e.1, { e.2 with
        tlb := e.2.tlb.filter (fun t => t.part != p)
        kv := e.2.kv.filter (fun k => k.part != p)
        kvh := e.2.kvh.filter (fun k => k.part != p)
        rmap := if mine e.1 then [] else e.2.rmap }))
      engines := d.engines.map (fun e => (e.1, { e.2 with tlb := e.2.tlb.filter (fun t => t.part != p) }))
      dies := d.dies.map (fun e => (e.1, { e.2 with
        tlb := e.2.tlb.filter (fun t => t.part != p)
        ptrs := e.2.ptrs.filter (fun t => t.part != p)
        walkers := e.2.walkers.filter (fun w => w.2.part != p)
        misses := e.2.misses.filter (fun w => w.part != p)
        answers := e.2.answers.filter (fun a => a.part != p) }))
      parts := d.parts.set p { x with zeroing := false, ptbase := 0, rmap := [], code := [], groups := [], spill := [] } }

def execZeroingComplete (part : Nat) (s : State) : Host.Outcome State Fault Refusal := eventStep s (zeroingD part)

/-! ### The host's view (R428 to R433) -/

/-- The enabled partition in whose HBM window a line lies (R428). -/
def lineOwner (d : Dev) (l : Nat) : Option Nat :=
  (d.parts.find? (fun e => e.2.enabled && inWindows d e.1 (l * 64) 64)).map (·.1)

/-- The host's access to a line of a partition waits at its pan as an agent's does (R103, R105, R428). -/
def hostWaits (d : Dev) (load : Bool) (e : Nat × Nat × Nat) : Bool :=
  isHbm (e.1 * 64) && (match lineOwner d e.1 with
    | some p => if load then agentWaits d p (Sub.new e.1 .load) else storeWaits d p (e.1 * 64 + e.2.1) e.2.2
    | none => false)

/-- Sectors that the host's write merges with are fetched first (R102). -/
def hostFills (d : Dev) (e : Nat × Nat × Nat) : Dev :=
  if !isHbm (e.1 * 64) then d
  else match lineOwner d e.1 with
    | some p => storeFills d p (e.1 * 64 + e.2.1) e.2.2
    | none => d

/-- The host reads a part of a line: at its pan, or at its stack where no partition has it (R68, R428). -/
def hostLoad (d : Dev) (e : Nat × Nat × Nat) : Dev :=
  match lineOwner d e.1 with
  | some p => agentReads d p (e.1 * 64 + e.2.1) e.2.2
  | none => readSectors d e.1 15

/-- The host writes a part of a line, with its bytes as a number: at its pan, or at its stack; in a hole nothing is written (R428). -/
def hostLine (d : Dev) (e : Nat × Nat × Nat) (v : Nat) : Dev :=
  if !isHbm (e.1 * 64) then d.raise 64
  else match lineOwner d e.1 with
    | some p => agentWriteN d p (e.1 * 64 + e.2.1) e.2.2 v
    | none => devWriteN d (e.1 * 64 + e.2.1) e.2.2 v

/-- Bytes as a number, the first the least significant (R12). -/
def bytesValue (l : List Byte) : Nat := l.foldr (fun b v => b.toNat + 256 * v) 0

/-- APERTURE_ACCESS (R428): an access that its pan keeps waiting is tried again; a read returns its bytes, or Unsupported Request. -/
def apertureD (acc : Aperture) (d : Dev) : Dev :=
  match acc with
  | .read a n =>
    let parts := lineParts a n
    if parts.any (fun e => !isHbm (e.1 * 64)) then { d.raise 64 with hostData := none }
    else if parts.any (hostWaits d true) then d
    else { parts.foldl hostLoad d with hostData := some (devReadN d a n) }
  | .write a l =>
    let parts := lineParts a l.length
    if parts.any (hostWaits d false) then parts.foldl hostFills d
    else parts.foldl (fun d e => hostLine d e (bytesValue ((l.drop (e.1 * 64 + e.2.1 - a)).take e.2.2))) d

/-- BAR 4 reads 0 in minimal mode (R438). -/
def execApertureAccess (acc : Aperture) (s : State) : Host.Outcome State Fault Refusal :=
  eventStep s (if bsMinimal s.boot then (match acc with
    | .read .. => fun d => { d with hostData := some 0 }
    | .write .. => id) else apertureD acc)

/-- FEATOFF (R432). -/
def featoff : BitVec 128 := 0x1F

/-- FEATCTL_GO (R432). -/
def execFeatctlGo (s : State) : Host.Outcome State Fault Refusal :=
  bootStep s (fun b d =>
    let ok := (b.featacc &&& ~~~ featoff) == 0#128
    ({ b with featctl := b.featctl ||| 1#64 ||| (if ok then 2#64 else 4#64) }, d))

/-- FUNCTION_LEVEL_RESET (R433): every enabled partition is disabled, FEATCTL cleared. -/
def execFunctionLevelReset (s : State) : Host.Outcome State Fault Refusal :=
  bootStep s (fun b d =>
    ({ b with featctl := 0 }, (List.range 16).foldl (fun d p =>
      if (d.part p).enabled then disablePart (d.setPart p { d.part p with pctl := (d.part p).pctl &&& ~~~ 1#64 }) p else d) d))

/-- A write of a partition's page (R430); registers with a step of their own, and read-only ones, are not stored here. -/
def partWrite (p off : Nat) (v : W64) (d : Dev) : Dev :=
  let x := d.part p
  match off with
  | 0x08 => d.setPart p { x with tval := v }
  | 0x18 => flushRecords (d.setPart p { x with tring := v }) p
  | 0x20 => flushRecords (d.setPart p { x with fring := v }) p
  | 0x48 => d.setPart p { x with xinva := v }
  | _ => d

/-- Writes 8 bytes of the recovery window. -/
def recoveryWrite (m : Mem) (a : Nat) (v : W64) : Mem := memWriteN m a 8 v.toNat

/-- Device registers that a step of their own writes, or none: rails (R440), ports (R442), CWSELF and CWRQ (R412), and the
partitions' control registers (R72, R83, R425, R426). -/
def ownStep (a : Nat) : Bool :=
  a == 0x10000000210 || a == 0x10000000218 || (0x10000002000 ≤ a && a < 0x10000002410) || (0x10000100000 ≤ a && a < 0x10000110000)

/-- A write of device register space (R65, R441): wrapper registers, or a register that only stores. -/
def deviceWrite (a : Nat) (v : W64) (b : Boot) (d : Dev) : Boot × Dev :=
  let k := (a - 0x10000001000) / 0x40
  if 0x10000001000 ≤ a ∧ k < 12 then
    match (a - 0x10000001000) % 0x40 with
    | 0 => ({ b with h15ir := b.h15ir.set k v }, d)
    | 8 => ({ b with h15dr := b.h15dr.set k v }, d)
    | _ => (b, d)
  else if ownStep a then (b, d)
  else (b, { d with regs := d.regs.set a v })

/-- REGISTER_WRITE (R428): an address below 2^24 is an offset in BAR 0, another one a device register address. The last 64 KiB of the
recovery window lie over the partitions' pages: they are the window in minimal mode, the pages otherwise (log 28). -/
def registerWrite (a : Nat) (v : W64) (b : Boot) (d : Dev) : Boot × Dev :=
  if a % 8 ≠ 0 then (b, d)
  else if a = 0x20 then ({ b with featacc := (b.featacc >>> 64 <<< 64) ||| v.setWidth 128 }, d)
  else if a = 0x28 then ({ b with featacc := (b.featacc &&& 0xFFFFFFFFFFFFFFFF#128) ||| (v.setWidth 128 <<< 64) }, d)
  else if 0x10000 ≤ a ∧ a < (if bsMinimal b then 0x110000 else 0x100000) then
    ({ b with recovery := recoveryWrite b.recovery (a - 0x10000) v }, d)
  else if 0x100000 ≤ a ∧ a < 0x110000 then (b, partWrite ((a - 0x100000) / 0x1000) (a % 0x1000) v d)
  else if 0x200000 ≤ a ∧ a < 0x1000000 then deviceWrite (0x10000000000 + (a - 0x200000)) v b d
  else if a < 0x1000000 then (b, d)
  else deviceWrite a v b d

def execRegisterWrite (addr : Nat) (v : W64) (s : State) : Host.Outcome State Fault Refusal := bootStep s (registerWrite addr v)

/-- A partition's register, by its offset in the partition's page (R425, R426, R430). -/
def partRead (d : Dev) (p off : Nat) : W64 :=
  let x := d.part p
  match off with
  | 0x00 => x.tans
  | 0x08 => x.tval
  | 0x10 => x.fres
  | 0x18 => x.tring
  | 0x20 => x.fring
  | 0x28 => x.trw
  | 0x30 => x.frw
  | 0x38 => x.trr
  | 0x40 => x.frr
  | 0x48 => x.xinva
  | 0x50 => x.xinvc
  | _ => 0

/-- A device register (R72, R133, R411, R412, R425, R426, R439 to R442). -/
def deviceRead (b : Boot) (d : Dev) (a : Nat) : W64 :=
  let k := (a - 0x10000001000) / 0x40
  let port := d.port ((a - 0x10000002000) / 0x40)
  let p := (a - 0x10000100000) / 0x1000
  let off := (a - 0x10000100000) % 0x1000
  if a = 0x10000000200 then BitVec.ofNat 64 b.throttle
  else if a = 0x10000000210 then b.pwrctl
  else if a = 0x10000000218 then b.pwrstat
  else if 0x10000001000 ≤ a ∧ k < 12 then
    match (a - 0x10000001000) % 0x40 with
    | 0 => b.h15ir.getD k 0
    | 8 => b.h15dr.getD k 0
    | 16 => b.h15go.getD k 0
    | _ => 0
  else if 0x10000002000 ≤ a ∧ a < 0x10000002200 then
    match (a - 0x10000002000) % 0x40 with
    | 0 => port.cwctl
    | 8 => port.cwstat
    | _ => 0
  else if a = 0x10000002400 then d.cwself
  else if a = 0x10000002408 then d.cwrq
  else if 0x10000100000 ≤ a ∧ p < 16 then
    if off = 0 then (d.part p).pctl
    else if 0x100 ≤ off ∧ off < 0x140 then (d.part p).pwin.getD ((off - 0x100) / 8) 0
    else d.regs.getD a 0
  else d.regs.getD a 0

/-- What a read of n bytes at an offset of BAR 0 returns (R428, R430 to R436): 0 but for an aligned read of 8 bytes. A read changes
nothing. -/
def registerRead (b : Boot) (d : Dev) (a n : Nat) : W64 :=
  if n ≠ 8 ∨ a % 8 ≠ 0 then 0
  else if a = 0x00 then ident
  else if a = 0x08 then b.bootstat
  else if a = 0x10 then featoff.setWidth 64
  else if a = 0x18 then (featoff >>> 64).setWidth 64
  else if a = 0x20 then b.featacc.setWidth 64
  else if a = 0x28 then (b.featacc >>> 64).setWidth 64
  else if a = 0x30 then b.featctl
  else if 0x100 ≤ a ∧ a < 0x300 then ((b.meas.getD ((a - 0x100) / 64) 0) >>> (8 * (a % 64))).setWidth 64
  else if 0x10000 ≤ a ∧ a < (if bsMinimal b then 0x110000 else 0x100000) then BitVec.ofNat 64 (memReadN b.recovery (a - 0x10000) 8)
  else if 0x100000 ≤ a ∧ a < 0x110000 then partRead d ((a - 0x100000) / 0x1000) (a % 0x1000)
  else if 0x200000 ≤ a ∧ a < 0x1000000 then deviceRead b d (0x10000000000 + (a - 0x200000))
  else 0

/-- What a read of a queue's notify register returns: TAIL (R374), and 0 in minimal mode (R438). -/
def notifyRead (b : Boot) (d : Dev) (q : Nat) : W64 := if bsMinimal b then 0 else (d.queue q).tail.setWidth 64

/-! ### The measured start (R434 to R438) -/

/-- BOOTSTAT (R436). -/
def mkBootstat (ok : Bool) (reason unit fsc : Nat) (minimal : Bool) : W64 :=
  BitVec.ofNat 64 ((if minimal then 1 else 0) + fsc % 8 * 2 + unit % 16 * 16 + reason % 256 * 256 + (if ok then 65536 else 0))

def bsReason (b : Boot) : Nat := bits b.bootstat 15 8
def bsUnit (b : Boot) : Nat := bits b.bootstat 7 4

def extend (i : Nat) (data : List Byte) (b : Boot) : Boot := { b with meas := b.meas.set i (extendMeas (b.meas.getD i 0) data) }

/-- The reason with which steps 5 to 8 fail on a bundle. -/
def bundleFails (n : Nat) : Option Nat :=
  if !Config.bundleFormat n then some 3
  else if !Config.bundleKey n then some 2
  else if !Config.bundleSig n then some 1
  else if !Config.bundleVersion n then some 4
  else none

/-- What a start leaves of the registers: flash contents, the reason of the last failure and the recovery window. -/
def Boot.fresh (b : Boot) : Boot := { Boot.reset with
  fsc := b.fsc, bundle := b.bundle, recovery := b.recovery, bootstat := mkBootstat false (bsReason b) (bsUnit b) b.fsc false }

/-- Steps 1 to 10 of R434 at a clock, with the steps that fail: the fourth start is in minimal mode, with the rails of the Pier and PCI
Express on (R438). Whether flash can be read and written is a free value of each start (log 92). A start that fails leaves its reason, and the
next one begins. -/
def startFrom (now seed : Nat) (b : Boot) : Boot :=
  let b := b.fresh
  let fail := fun (b : Boot) (r : Nat) => { b with start := 1, bootstat := mkBootstat false r 0 b.fsc false }
  if Config.flashFails seed then fail b 8
  else if 3 ≤ b.fsc then { b with pwrctl := 3, pwrstat := 3, bootstat := mkBootstat false (bsReason b) (bsUnit b) b.fsc true }
  else if Config.flashFails (seed + 1) then fail b 8
  else
    let b := { b with fsc := b.fsc + 1 }
    let b := extend 0 Config.romDigest b
    match bundleFails b.bundle with
    | some r => fail b r
    | none =>
      let b := extend 1 (Config.bundleHeader b.bundle) b
      let b := (Config.bundleComponents b.bundle).foldl (fun b x => extend 2 x b) b
      { b with start := 10, startAt := now, bootstat := mkBootstat false (bsReason b) (bsUnit b) b.fsc false }

/-- A start of the device (R434); one that fails at once raises the device vector (R429, log 118). -/
def restart (b : Boot) (d : Dev) : Boot × Dev :=
  let b' := startFrom d.clock d.free b
  let d' := { Dev.reset with clock := d.clock, free := d.free + 2 }
  (b', if b'.start = 1 then d'.raise 64 else d')

/-- A failing start: its reason and unit go to BOOTSTAT and flash, the device vector is raised (R429, log 118), and the device starts again from
step 1 (R434). -/
def failStart (reason unit : Nat) (b : Boot) (d : Dev) : Boot × Dev :=
  let r := restart { b with bootstat := mkBootstat false reason unit b.fsc false } d
  (r.1, r.2.raise 64)

/-- After a start that has failed the next begins (R434). -/
def startAgain (b : Boot) (d : Dev) : Boot × Dev := if b.start = 1 then restart b d else (b, d)

/-- POWER_ON (R434). -/
def execPowerOn (s : State) : Host.Outcome State Fault Refusal := bootStep s restart

/-- All rails of R440 are good. -/
def railsGood (b : Boot) : Bool := bits b.pwrstat 10 0 == 0x7FF
/-- All twelve stacks have passed training (R441). -/
def stacksTrained (b : Boot) : Bool := (List.range 12).all (fun k => b.trained.getD k 0 == 6)

/-- The limit of a rail in core clocks (R440). -/
def railLimit (r : Nat) : Nat := 600000 * (if r = 3 then 3 else if 4 ≤ r ∧ r ≤ 7 then 5 else 2)

/-- The lowest rail that is enabled, not good, and past its limit. -/
def lateRail (b : Boot) (now : Nat) : Option Nat :=
  (List.range 11).find? (fun r => bit b.pwrctl r && !bit b.pwrstat r && decide (b.railAt.getD r 0 + railLimit r < now))

/-- The limit of a training step in core clocks (R441). -/
def trainLimit (step : Nat) : Nat :=
  match step with
  | 1 => 600000
  | 2 => 60000
  | 3 => 12000000
  | 4 => 12000000
  | 5 => 3000000
  | _ => 540000000

/-- The wrapper operation of a stack has lasted longer than its step of training may (R441). -/
def stackLate (b : Boot) (now k : Nat) : Bool := decide (b.h15At.getD k 0 + trainLimit (b.trained.getD k 0 + 1) < now)

/-- The lowest stack in training whose operation has not ended within its limit. -/
def lateStack (b : Boot) (now : Nat) : Option Nat :=
  (List.range 12).find? (fun k => b.h15go.getD k 0 == 1 && decide (b.trained.getD k 0 < 6) && stackLate b now k)

/-- FWTIMEOUT (R434 step 11): 2 s after step 10 without BOOTOK; a rail or a stack past its limit fails the start first (R440, R441). -/
def fwtimeout (b : Boot) (d : Dev) : Boot × Dev :=
  if b.start ≠ 10 then (b, d)
  else match lateRail b d.clock with
    | some r => failStart 5 r b d
    | none => match lateStack b d.clock with
      | some k => failStart 6 k b d
      | none => if b.startAt + 1200000000 ≤ d.clock then failStart 7 0 b d else (b, d)

def execFwtimeout (s : State) : Host.Outcome State Fault Refusal := bootStep s fwtimeout

/-- BOOTOK (R434 steps 11 and 12): within 2 s of step 10, after the rail and training sequences. -/
def bootok (b : Boot) (d : Dev) : Boot × Dev :=
  if b.start = 10 ∧ railsGood b ∧ stacksTrained b ∧ d.clock < b.startAt + 1200000000 then
    ({ b with start := 12, fsc := 0, bootstat := mkBootstat true (bsReason b) (bsUnit b) 0 false }, d.raise 64)
  else (b, d)

def execBootok (s : State) : Host.Outcome State Fault Refusal := bootStep s bootok

/-- FEATCTL_RELOAD (R438): in minimal mode the bundle of the recovery window is checked and taken, or refused with its reason. -/
def featctlReload (b : Boot) (d : Dev) : Boot × Dev :=
  if !bsMinimal b then (b, d)
  else
    let n := memReadN b.recovery 0 1048576
    match bundleFails n with
    | some r => ({ b with bootstat := mkBootstat false r 0 b.fsc true }, d)
    | none => restart { b with bundle := n, fsc := 0 } d

def execFeatctlReload (s : State) : Host.Outcome State Fault Refusal := bootStep s featctlReload

/-! ### Power and training (R439 to R441) -/

/-- The throttle step after a power sample (R439): one up above the limit, one down below 95 % of it. -/
def throttleNext (milliwatts t : Nat) : Nat :=
  let limit := Config.powerLimit Config.formM
  if limit < milliwatts then Nat.min 15 (t + 1) else if milliwatts * 100 < limit * 95 then t - 1 else t

/-- POWER_SAMPLE (R439): a change of the step is a power event (R429, log 118). The power hart does not run in minimal mode (R438). -/
def powerSample (milliwatts : Nat) (b : Boot) (d : Dev) : Boot × Dev :=
  let t := throttleNext milliwatts b.throttle
  if bsMinimal b ∨ t = b.throttle then (b, d) else ({ b with throttle := t }, d.raise 64)

def execPowerSample (milliwatts : Nat) (s : State) : Host.Outcome State Fault Refusal := bootStep s (powerSample milliwatts)

/-- Rails that are on, when they are those of R440's first steps. -/
def railsOn (v : W64) : Option Nat := (List.range 12).find? (fun n => v == BitVec.ofNat 64 (2 ^ n - 1))

/-- The next rail may be switched on: the one before it is good, and the last waits 200 µs after it (R440). -/
def mayRaise (b : Boot) (now n : Nat) : Bool :=
  b.pwrstat == BitVec.ofNat 64 (2 ^ n - 1) && (n != 10 || decide (b.railAt.getD 9 0 + 120000 ≤ now))

/-- A rail may be switched off: 1 ms after the one before (R440). -/
def mayLower (b : Boot) (now : Nat) : Bool :=
  match b.offAt with
  | some t => decide (t + 600000 ≤ now)
  | none => true

/-- PWRCTL_WRITE (R440) by the power hart, which does not run in minimal mode (R438): it switches on the rails in the order of the table, each
once the one before is good, and off in the reverse order, 1 ms apart; it makes no other write (log 117). -/
def pwrctlWrite (v : W64) (b : Boot) (d : Dev) : Boot × Dev :=
  match railsOn b.pwrctl, railsOn v with
  | some m, some n =>
    if bsMinimal b then (b, d)
    else if n = m + 1 ∧ mayRaise b d.clock m then ({ b with pwrctl := v, railAt := b.railAt.set m d.clock }, d)
    else if n + 1 = m ∧ mayLower b d.clock then ({ b with pwrctl := v, pwrstat := b.pwrstat &&& v, offAt := some d.clock }, d)
    else (b, d)
  | _, _ => (b, d)

def execPwrctlWrite (v : W64) (s : State) : Host.Outcome State Fault Refusal := bootStep s (pwrctlWrite v)

/-- RAIL_GOOD (R440): an enabled rail reaches regulation, a power event (R429, log 118); a start fails when that comes after the rail's limit. -/
def railGood (r : Nat) (b : Boot) (d : Dev) : Boot × Dev :=
  if 11 ≤ r ∨ !bit b.pwrctl r ∨ bit b.pwrstat r then (b, d)
  else if b.start = 10 ∧ b.railAt.getD r 0 + railLimit r < d.clock then failStart 5 r b d
  else
    let b := { b with pwrstat := b.pwrstat ||| BitVec.ofNat 64 (2 ^ r), railAt := b.railAt.set r d.clock }
    (if b.start = 10 ∧ railsGood b then extend 4 Config.powerBytes b else b, d.raise 64)

def execRailGood (rail : Nat) (s : State) : Host.Outcome State Fault Refusal := bootStep s (railGood rail)

/-- H15GO_START (R441), by the memory hart, which does not run in minimal mode (R438). -/
def execH15goStart (stack : Nat) (s : State) : Host.Outcome State Fault Refusal :=
  bootStep s (fun b d => (if stack < 12 ∧ !bsMinimal b then
    { b with h15go := b.h15go.set stack 1, h15At := b.h15At.set stack d.clock } else b, d))

/-- Training has ended on every stack. -/
def trainingOver (b : Boot) : Bool := (List.range 12).all (fun k => 6 ≤ b.trained.getD k 0)

/-- The end of training (R441): the lowest failing stack fails the start, or the results of this training are measured in stack order (log 9). -/
def trainingEnd (b : Boot) (d : Dev) : Boot × Dev :=
  if !trainingOver b then (b, d)
  else match (List.range 12).find? (fun k => 100 ≤ b.trained.getD k 0) with
    | some k => failStart 6 k b d
    | none => ((List.range 12).foldl (fun b k => extend 3 (Config.trainingBytes d.free k) b) b, d)

/-- H15GO_DONE (R441): the operation's result is in H15DR; during a start it passes the stack's next step of training, within the step's limit, or
fails it. -/
def h15goDone (k : Nat) (dr : W64) (b : Boot) (d : Dev) : Boot × Dev :=
  if b.h15go.getD k 0 ≠ 1 then (b, d)
  else
    let b := { b with h15go := b.h15go.set k 0, h15dr := b.h15dr.set k dr }
    let t := b.trained.getD k 0
    if b.start ≠ 10 ∨ 6 ≤ t then (b, d)
    else trainingEnd { b with trained := b.trained.set k (if Config.trainPass k (t + 1) dr && !stackLate b d.clock k then t + 1 else 101 + t) } d

def execH15goDone (stack : Nat) (dr : W64) (s : State) : Host.Outcome State Fault Refusal := bootStep s (h15goDone stack dr)

/-- The bring-up of a port has ended: its results are measured (R435, R442; log 9). -/
def linkEnd (port : Nat) (b : Boot) (d : Dev) : Boot :=
  if port < 8 ∧ (d.port port).state = 1 then extend 3 (Config.linkBytes d.free port) b else b

def execCausewayPortUp (port : Nat) (s : State) : Host.Outcome State Fault Refusal :=
  bootStep s (fun b d => (linkEnd port b d, causewayPortUpD port d))

def execPortDown (port : Nat) (s : State) : Host.Outcome State Fault Refusal :=
  bootStep s (fun b d => (linkEnd port b d, portDownD port d))

/-- CWSELF_WRITE (R412, R435): ignored, also in minimal mode (R438), or accepted and measured. -/
def cwselfWrite (v : W64) (b : Boot) (d : Dev) : Boot × Dev :=
  if bsMinimal b ∨ v = 0x3FF ∨ bits v 63 10 ≠ 0 ∨ d.ports.any (fun e => e.2.state == 2) then (b, d)
  else (extend 3 ((List.range 8).map (fun i => v.extractLsb' (8 * i) 8)) b, { d with cwself := v })

def execCwselfWrite (v : W64) (s : State) : Host.Outcome State Fault Refusal := bootStep s (cwselfWrite v)

end Sys2Proof.Machine
end

