-- ==== Sys2Proof/Machine/Kv.lean ====
section
/-!
DEFINITION. Paged key-value translation (R87 to R96): kvx, kvinv and the steps KVX_ENTRY_RETURN and KVINV_ACK.
-/
namespace Sys2Proof.Machine

/-! ### Headers and entries (R87, R88) -/

def kvField (h : BitVec 256) (byte n : Nat) : Nat := (h.toNat >>> (8 * byte)) % 256 ^ n
def kvTbase (h : BitVec 256) : Nat := kvField h 0 8
def kvRowlen (h : BitVec 256) : Nat := kvField h 8 4
def kvNseq (h : BitVec 256) : Nat := kvField h 12 4
def kvBlklog (h : BitVec 256) : Nat := kvField h 16 1
def kvToklog (h : BitVec 256) : Nat := kvField h 17 1

def kvHeaderOk (h : BitVec 256) : Bool :=
  kvTbase h < 2 ^ 48 && kvTbase h % 64 == 0 && 1 ≤ kvRowlen h && kvRowlen h ≤ 65536 && 1 ≤ kvNseq h &&
    kvBlklog h ≤ 12 && kvToklog h ≤ 16 && kvField h 18 14 == 0

/-- What the first part of kvx finds for one lane (R91). -/
inductive KvLane where
  | miss (page : Nat)
  /-- a read that met NOTMAPPED: page and record kind -/
  | unmapped (page kind : Nat)
  | prot (c : FCode)
  /-- the header is not read yet: its virtual and physical address -/
  | header (va pa : Nat)
  | range
  /-- the entry to read: physical address when it is not cached, its value when it is, and the offset in the block -/
  | entry (hva seq blk off : Nat) (pa : Option Nat) (val : W64) (hdr : BitVec 256)
  deriving DecidableEq, Repr

/-- A cached header of the cluster (R92). -/
def kvHeaderFind (d : Dev) (c p hva : Nat) : Option (BitVec 256) :=
  ((d.cluster c).kvh.find? (fun e => e.part == p && e.header == hva)).map (·.data)

def kvEntryFind (d : Dev) (c p hva seq blk : Nat) : Option W64 :=
  ((d.cluster c).kv.find? (fun e => e.part == p && e.header == hva && e.seq == seq && e.block == blk)).map (·.entry)

/-- The hint of a table read: KIND 1 makes every hint act as hint 3 (R48, R73, R90). -/
def tableHint (d : Dev) (w : Warp) (va hint : Nat) : Nat :=
  match xlate d w.xl w.cluster (d.partOf w) va .read with
  | .hit _ l => if l.kind = 1 then 3 else hint
  | _ => hint

/-- One lane up to its entry read (R87, R91, R92). The header comes from the header cache, or from the line that the word has read. -/
def kvLane (d : Dev) (w : Warp) (hva seq pos : Nat) : KvLane :=
  let p := d.partOf w
  let go := fun (h : BitVec 256) =>
    if !kvHeaderOk h then KvLane.prot .kvFormat
    else
      let blk := pos / 2 ^ kvBlklog h
      let off := pos % 2 ^ kvBlklog h * 2 ^ kvToklog h
      if kvNseq h ≤ seq ∨ kvRowlen h ≤ blk then .range
      else match kvEntryFind d w.cluster p hva seq blk with
        | some e => .entry hva seq blk off none e h
        | none =>
          let va := kvTbase h + 8 * (seq * kvRowlen h + blk)
          if 2 ^ 48 ≤ va then .prot .nonCanon
          else match xlate d w.xl w.cluster p va .read with
            | .hit pa _ => .entry hva seq blk off (some pa) 0 h
            | .miss => .miss (va / 65536)
            | .fault .notMapped => .unmapped (va / 65536) 5
            | .fault c => .prot c
  match kvHeaderFind d w.cluster p hva with
  | some h => go h
  | none =>
    match xlate d w.xl w.cluster p hva .read with
    | .hit pa _ => if (w.rl.line (pa / 64)).isSome then go (BitVec.ofNat 256 (w.rl.value pa 32)) else .header hva pa
    | .miss => .miss (hva / 65536)
    | .fault .notMapped => .unmapped (hva / 65536) 4
    | .fault c => .prot c

/-- The header cache takes the headers read (R92): 4 entries, oldest out. -/
def kvKeepHeaders (d : Dev) (c p : Nat) (l : List (Nat × BitVec 256)) : Dev :=
  l.foldl (fun d e =>
    if (kvHeaderFind d c p e.1).isSome then d
    else d.setCluster c { d.cluster c with kvh := (⟨p, e.1, e.2⟩ :: (d.cluster c).kvh).take 4 }) d

/-- A request of a kvx: one per distinct (header, sequence, block) (R92). A cached entry is answered at once. -/
def kvSub (hva seq blk : Nat) (pa : Option Nat) (val : W64) (lane hint page : Nat) : Sub :=
  let u := { Sub.new ((pa.getD 0) / 64) .load with
    version := hva, status := blk, reply := BitVec.ofNat 64 seq, lanes := BitVec.ofNat 64 (2 ^ lane), hint := hint }
  match pa with
  | some _ => { u with pages := [page] }
  | none => { u with st := .back, data := val.setWidth 512 }

/-- An entry read of a kvx that is on its way: out of the waiting ones, and its reply has not arrived (R92). -/
def kvFlying (cl : Cluster) (e : Nat × MemOp) (u : Nat × Sub) : Bool :=
  e.2.kind.isKvx && u.2.st != .back && !cl.kvq.contains (e.1, u.1)

/-- Entry reads of a cluster in flight. -/
def kvReads (d : Dev) (c : Nat) : Nat :=
  ((d.ops.filter (fun e => e.2.cluster == c)).map (fun e => (e.2.subs.filter (kvFlying (d.cluster c) e)).length)).sum

/-- Waiting entry reads leave while fewer than 16 are in flight (R92). -/
def kvPump (d : Dev) (c : Nat) : Dev :=
  if (d.cluster c).kvq.isEmpty then d
  else
    let n := 16 - kvReads d c
    let l := (d.cluster c).kvq.take n
    send (d.setCluster c { d.cluster c with kvq := (d.cluster c).kvq.drop n }) c l

/-- Adds a lane's entry to the requests, sharing an equal key; answers the requests and the lane's place. -/
def kvJoin (subs : Tab Sub) (u : Sub) : Tab Sub × Nat :=
  match subs.find? (fun e => e.2.version == u.version && e.2.status == u.status && e.2.reply == u.reply) with
  | some (i, x) => (subs.set i { x with lanes := x.lanes ||| u.lanes }, i)
  | none => (subs.set subs.length u, subs.length)

/-- Headers that are neither cached nor read are asked for with the word's hint, as the entries are; the word waits for them before it
issues (R90, R92; log 108). -/
def kvHeaders (hint : Nat) (l : List (Nat × Nat)) (d : Dev) (k : Nat) (w : Warp) : Dev :=
  let lines := l.foldl (fun a e => if a.any (fun x => x.1 == e.2 / 64) then a else a ++ [(e.2 / 64, e.1 / 65536)]) ([] : List (Nat × Nat))
  if w.rl.op.isSome || memWait d k w .t (lines.map (·.1)) then laneStall d k w
  else
    let (d, w) := startRead true false false (tableHint d w (((l.head?).map (·.1)).getD 0) hint) lines d k w
    laneStall d k w

/-- KVX (R89 to R92). Table reads of one page that meet NOTMAPPED share one record of their kind (log 103). -/
def kvxWord (f : LaneWord) : Dev → Nat → Warp → Block → Dev :=
  let row : LaneRow := ⟨fun t => t == 7, mod0, true, .dst 7, .src 7, .src 7, .src 7, .pdst⟩
  laneChecked row f true false (fun d k w b =>
    let c := lcx d w b
    let p := d.partOf w
    let on := execMask w b f
    let l := (lanesOn on).map (fun i => (i, BitVec.ofNat 64 (c.read f.s2.toNat 7 i)))
    let form := fun (a : W64) => match aform a with
      | .va _ => (none : Option FCode)
      | .tagged _ _ => some .tagMisuse
      | .bad => some .nonCanon
    let align := fun (a : W64) => if a.toNat % 32 = 0 then (none : Option FCode) else some .kvFormat
    match faultsOf (l.map (fun e => (e.1, form e.2))), faultsOf (l.map (fun e => (e.1, align e.2))) with
    | some (fc, m), _ => laneTrap d k w b .prot m (BitVec.ofNat 64 fc.num)
    | none, some (fc, m) => laneTrap d k w b .prot m (BitVec.ofNat 64 fc.num)
    | none, none =>
      let xs := l.map (fun e => (e.1, kvLane d w e.2.toNat (c.read f.s0.toNat 7 e.1 % 2 ^ 32) (c.read f.s1.toNat 7 e.1 % 2 ^ 32)))
      let misses := distinct (xs.filterMap (fun e => match e.2 with
        | .miss pg => some pg
        | _ => none))
      if !misses.isEmpty then
        laneStall (misses.foldl (fun d pg => addMiss d (w.cluster / 64) p (pg * 65536) (.lanes k)) d) k w
      else
        match faultsOf (xs.map (fun e => (e.1, match e.2 with
          | .prot fc => some fc
          | _ => none))) with
        | some (fc, m) => laneTrap d k w b .prot m (BitVec.ofNat 64 fc.num)
        | none =>
          let headers := xs.filterMap (fun e => match e.2 with
            | .header va pa => some (va, pa)
            | _ => none)
          let reads := xs.filterMap (fun e => match e.2 with
            | .entry _ _ _ _ (some pa) _ _ => some (pa / 64)
            | _ => none)
          if !headers.isEmpty then kvHeaders f.hint.toNat headers d k w
          else if memWait d k w .t reads then laneStall d k w
          else
            let unm := xs.filterMap (fun e => match e.2 with
              | .unmapped pg kd => some (e.1, pg, kd)
              | _ => none)
            let ranged := xs.filterMap (fun e => match e.2 with
              | .range => some (e.1, (0 : W64))
              | _ => none)
            let ents := xs.filterMap (fun e => match e.2 with
              | .entry hva seq blk off pa val h => some (e.1, hva, seq, blk, off, pa, val, h)
              | _ => none)
            let d := kvKeepHeaders d w.cluster p (ents.map (fun e => (e.2.1, e.2.2.2.2.2.2.2)))
            let d := (distinct (unm.map (fun e => e.2.1 * 8 + e.2.2))).foldl (fun d x =>
              (addFault d p (x / 8 * 65536) 0 0 .notMapped (x % 8) w.cluster w.wslot).1) d
            let put := ents.foldl (fun (a : Tab Sub × Tab Remote) e =>
              let (lane, hva, seq, blk, off, pa, val, h) := e
              let va := kvTbase h + 8 * (seq * kvRowlen h + blk)
              let r := kvJoin a.1 (kvSub hva seq blk pa val lane (tableHint d w va f.hint.toNat) (va / 65536))
              (r.1, a.2.set lane ⟨r.2, off, 0, 0, true, true, false⟩)) ([], [])
            let addr := ents.foldl (fun (t : Tab Nat) e => match e.2.2.2.2.2.1 with
              | some a => t.set (((put.2.get? e.1).map (·.crew)).getD 0) a
              | none => t) []
            let id := d.nextId
            let pages := (ents.filterMap (fun e => if e.2.2.2.2.2.1.isSome then
                some ((kvTbase e.2.2.2.2.2.2.2 + 8 * (e.2.2.1 * kvRowlen e.2.2.2.2.2.2.2 + e.2.2.2.1)) / 65536) else none))
            let op := { MemOp.new k w p .lane .t (.kvx f.dst.toNat f.lsel.toNat (f.s3.toNat - 1544) (f.nowb == 1)) (laneAddr w b) b.base with
              hint := f.hint.toNat, lanes := on, left := maskOf (unm.map (·.1)), failed := ranged,
              subs := put.1, remotes := put.2, addr := addr, pages := pages, epoch := (d.pipe w.cluster w.pipe).epoch }
            let regs := (row.dRole f).regs f.dst.toNat ++ [f.s3.toNat, 1536 + f.lsel.toNat]
            let d := claimLatch d k f.lsel.toNat on
            let d := { d with nextId := id + 1, ops := d.ops.set id op }
            let d := laneNext d k { w.raiseOut .t id with pendV := w.pendV ++ regs.map (fun r => (id, r)) } b f
            kvPump (d.setCluster w.cluster { d.cluster w.cluster with
              kvq := (d.cluster w.cluster).kvq ++ (put.1.filter (fun e => e.2.st == .sent)).map (fun e => (id, e.1)) }) w.cluster)

def execKvx (f : LaneWord) (s : State) : Host.Outcome State Fault Refusal := laneWord s (kvxWord f)

/-- The entry word of request i: a cached one, or at its address in the line that was read. -/
def kvEntryOf (o : MemOp) (i : Nat) : W64 :=
  BitVec.ofNat 64 (lineBytes (o.subs.getD i (Sub.new 0 .load)).data (o.addr.getD i 0 % 64) 8)

/-- The 52-bit address of a lane, when it does not overflow. -/
def kvAddr (e : W64) (off : Nat) : Option Nat :=
  let pa := bits e 51 6 * 64 + off
  if 2 ^ 52 ≤ pa then none else some pa

/-- The KV cache takes an entry that was read, one with V = 0 too (R92; log 103): 256 entries, oldest out. -/
def kvKeep (d : Dev) (o : MemOp) (i : Nat) (u : Sub) : Dev :=
  let cl := d.cluster o.cluster
  if (o.addr.get? i).isNone ∨ u.noInstall ∨ (kvEntryFind d o.cluster o.part u.version u.reply.toNat u.status).isSome then d
  else d.setCluster o.cluster { cl with kv := (⟨o.part, u.version, u.reply.toNat, u.status, kvEntryOf o i⟩ :: cl.kv).take 256 }

/-- Misses of a word, one for each (sequence, block) (R91). -/
def blockMisses (o : MemOp) : List (Nat × Sub) :=
  (o.subs.filter (fun e => !bit (kvEntryOf o e.1) 0)).foldl (fun l e =>
    if l.any (fun x => x.2.reply == e.2.reply && x.2.status == e.2.status) then l else l ++ [e]) []

/-- Entries of a kvx that have been read arrive, and waiting reads of the cluster leave. -/
def kvArrive (id : Nat) (o : MemOp) (d : Dev) : Dev :=
  kvPump (d.setOp id { o with subs := o.subs.map (fun e =>
    (e.1, if e.2.st = .performed ∧ replyDue d o e.2 then { e.2 with st := .back } else e.2)) }) o.cluster

/-- KVX_ENTRY_RETURN (R88, R91, R92): headers or entries are back; with the last entry, vD, pM and the latch are written, and T falls. -/
def kvxReturnD (id : Nat) (d0 : Dev) : Dev :=
  match d0.ops.get? id with
  | none => d0
  | some o0 =>
    match o0.kind with
    | .fetch true => fetchReturn id true o0 d0
    | .kvx dst lsel pm nowb =>
      let d := kvArrive id o0 d0
      let o := (d.ops.get? id).getD o0
      if o.subs.any (fun e => e.2.st != .back) then d
      else
        let bad := fun (i : Nat) => bit (kvEntryOf o i) 0 && bits (kvEntryOf o i) 5 1 != 0
        let d1 := d.modWarp o.warp (fun w => (w.release id).returned .t id)
        let d1 := { d1 with ops := d1.ops.erase id }
        if o.subs.any (fun e => bad e.1) then
          let m := o.subs.foldl (fun m e => if bad e.1 then m ||| e.2.lanes else m) 0
          lateTrap d1 o.warp o .prot m (BitVec.ofNat 64 FCode.kvFormat.num)
        else
          let d1 := o.subs.foldl (fun d e => kvKeep d o e.1 e.2) d1
          let entryOf := fun (r : Remote) => kvEntryOf o r.crew
          let hit := fun (r : Remote) => bit (entryOf r) 0
          let res := o.remotes.filterMap (fun e => if hit e.2 then
              some (e.1, match kvAddr (entryOf e.2) e.2.off with
                | some pa => 2 ^ 63 + o.part % 16 * 2 ^ 52 + pa
                | none => 0) else none)
          let zero := o.failed.map (fun e => (e.1, 0))
          let masked := lanesOn o.left ++ (o.remotes.filter (fun e => !hit e.2)).map (·.1)
          let ranged := !o.failed.isEmpty || o.remotes.any (fun e => hit e.2 && (kvAddr (entryOf e.2) e.2.off).isNone)
          let d1 := writeBack d1 o 7 dst lsel nowb (res ++ zero)
          let d1 := d1.modWarp o.warp (fun w =>
            let w := w.setP pm ((lanesOn o.lanes).map (fun i => (i, masked.contains i)))
            if ranged then w.orFlags fKV else w)
          (blockMisses o).foldl (fun d e => (addFault d o.part e.2.version e.2.reply.toNat e.2.status .blockMiss 6 o.cluster
            (((d.warps.get? o.warp).map (·.wslot)).getD 0)).1) d1
    | _ => d0

def execKvxEntryReturn (op : Nat) (s : State) : Host.Outcome State Fault Refusal := eventStep s (kvxReturnD op)

/-! ### kvinv (R94, R95) -/

/-- Clusters of a partition (R97). -/
def clustersOf (d : Dev) (p : Nat) : List Nat := (List.range (d.part p).pans).map (· + (d.part p).basePan)

/-- KVINV. -/
def kvinvWord (f a b : BitVec 6) : Dev → Nat → Warp → Dev :=
  checked [ckZero (f == 0#6)] (interlock [a.toNat, b.toNat] (fun d k w =>
    if w.full .t || !w.acquires.isEmpty then stall d k w
    else
      let id := d.nextId
      let p := d.partOf w
      let v := w.s b.toNat
      let op := { MemOp.new k w p .scalar .t (.kvinv ((w.s a.toNat).toNat % 2 ^ 32) (bits v 31 0) (bits v 63 32)) w.spc.toNat 0 with
        waits := clustersOf d p }
      done { d with nextId := id + 1, ops := d.ops.set id op } k (w.raiseOut .t id) 4))

def execKvinv (d a b : BitVec 6) (s : State) : Host.Outcome State Fault Refusal := scalarWord s (kvinvWord d a b)

/-- The words whose entry reads are in flight from a cluster. -/
def kvInFlight (d : Dev) (c : Nat) : List Nat :=
  (d.ops.filter (fun e => e.2.cluster == c && e.2.subs.any (kvFlying (d.cluster c) e))).map (·.1)

/-- The invalidation arrives at a cluster (R94): entries and headers go, those that words have read and not yet cached too; reads in flight
will not be installed (R95). -/
def kvinvArrive (d : Dev) (id c p seq first count : Nat) : Dev :=
  let cl := d.cluster c
  let gone := fun (part sq block : Nat) => part == p && sq == seq && first ≤ block && block < first + count && block < 2 ^ 32
  let d := d.setCluster c { cl with
    kv := cl.kv.filter (fun e => !gone e.part e.seq e.block)
    kvh := []
    kvinv := cl.kvinv ++ [(id, kvInFlight d c)] }
  let sub := fun (e : Nat × MemOp) (u : Nat × Sub) =>
    { u.2 with noInstall := u.2.noInstall || kvFlying cl e u || gone e.2.part u.2.reply.toNat u.2.status && u.2.st == .back }
  { d with
    ops := d.ops.map (fun e => if e.2.cluster == c && e.2.kind.isKvx then
      (e.1, { e.2 with subs := e.2.subs.map (fun u => (u.1, sub e u)) }) else e)
    warps := d.warps.map (fun e => if e.2.cluster == c then (e.1, { e.2 with rl := Reads.empty }) else e) }

/-- KVINV_ACK (R94, R95): the invalidation reaches the cluster, which acknowledges once its reads in flight are back. -/
def kvinvAckD (id c : Nat) (d : Dev) : Dev :=
  match d.ops.get? id with
  | none => d
  | some o =>
    match o.kind with
    | .kvinv seq first count =>
      if !o.waits.contains c then d
      else
        let d := if (d.cluster c).kvinv.any (fun e => e.1 == id) then d else kvinvArrive d id c o.part seq first count
        match (d.cluster c).kvinv.find? (fun e => e.1 == id) with
        | none => d
        | some (_, reads) =>
          if reads.any (fun r => (d.ops.get? r).isSome) then d
          else
            let d := d.setCluster c { d.cluster c with kvinv := (d.cluster c).kvinv.filter (fun e => e.1 != id) }
            completeOp (d.modOp id (fun o => { o with waits := o.waits.filter (· != c) })) id
    | _ => d

def execKvinvAck (op cluster : Nat) (s : State) : Host.Outcome State Fault Refusal := eventStep s (kvinvAckD op cluster)

end Sys2Proof.Machine
end

