-- ==== Sys2Proof/Machine/LaneCross.lean ====
section
/-!
DEFINITION. Cross-lane words (R262 to R265) and the words whose opcode the lane map does not assign (R50).
-/
namespace Sys2Proof.Machine

/-- The largest power of two no greater than n, for n at most 64; 1 for 0 (R262). -/
def floorPow2 (n : Nat) : Nat := if n = 0 then 1 else 2 ^ Nat.log2 n

/-- Sub-group width, from the lowest-numbered executing lane (R262). -/
def subWidth (c : Lcx) (code : Nat) (on : List Nat) : Nat :=
  match on with
  | k :: _ => floorPow2 (Nat.min (c.read code 6 k) 64)
  | [] => 1

/-- The source of a lane on behalf of another: 0 at or above LANES (R262). -/
def Lcx.source (c : Lcx) (code t k : Nat) : Nat := if k < c.b.lanes then c.read code t k else 0

/-- The place in the sub-group that a lane reads from (R263). -/
def shflPlace (mode r i wd : Nat) : Int :=
  match mode with
  | 0 => i
  | 1 => (r : Int) - i
  | 2 => r + i
  | 3 => ((r ^^^ i : Nat) : Int)
  | _ => ((r + i) % wd : Nat)

/-- compute of R263: the result and the predicate of lane k. -/
def shflLane (c : Lcx) (f : LaneWord) (wd k : Nat) : Nat × Bool :=
  let t := f.ty.toNat
  let r := k % wd
  let p := shflPlace f.mdf.toNat r (c.read f.s1.toNat 6 k) wd
  if p < 0 ∨ (wd : Int) ≤ p then (c.read f.s0.toNat t k, false)
  else
    let j := k - r + p.toNat
    if c.b.lanes ≤ j then (0, false) else (c.source f.s0.toNat t j, true)

/-- SHFL (R263). -/
def execShfl (f : LaneWord) (s : State) : Host.Outcome State Fault Refusal :=
  laneWord s (laneChecked ⟨tyMove, fun _ m => m < 5, false, .dst f.ty.toNat, .src f.ty.toNat, .src 6, .src 6, .pdst⟩ f true false
    (fun d k w b =>
      let c := lcx d w b
      let on := lanesOn (execMask w b f)
      let wd := subWidth c f.s2.toNat on
      let res := on.map (fun i => (i, shflLane c f wd i))
      finish f f.ty.toNat false (res.map (fun e => (e.1, e.2.1))) 0 d k
        (w.setP (f.s3.toNat - 1544) (res.map (fun e => (e.1, e.2.2)))) b))

/-- One operation of lred on two values (R264). -/
def lredOp (o : Nat) (nmode : W64) (t x y : Nat) : Nat × W64 :=
  match o with
  | 0 => addT nmode t x y
  | 1 => (minT t x y, 0)
  | 2 => (maxT t x y, 0)
  | 3 => (x &&& y, 0)
  | 4 => (x ||| y, 0)
  | _ => (x ^^^ y, 0)

/-- n steps of R264 from stride s over the 64 values; each value carries the flags of its steps. -/
def lredSteps (op : Nat → Nat → Nat × W64) : Nat → Nat → List (Nat × W64) → List (Nat × W64)
  | 0, _, v => v
  | n + 1, s, v =>
    let at_ := fun (k : Nat) => v.getD k (0, 0)
    lredSteps op n (2 * s) ((List.range 64).map (fun k =>
      let r := op (at_ (Nat.min k (k ^^^ s))).1 (at_ (Nat.max k (k ^^^ s))).1
      (r.1, (at_ k).2 ||| r.2)))

/-- LRED (R264). -/
def execLred (f : LaneWord) (s : State) : Host.Outcome State Fault Refusal :=
  laneWord s (laneChecked ⟨tyNum, fun t m => m < 3 || (m < 6 && tyBits t), false, .dst f.ty.toNat, .src f.ty.toNat, .src 6, .unused, .unused⟩
    f true false
    (fun d k w b =>
      let t := f.ty.toNat
      let c := lcx d w b
      let on := lanesOn (execMask w b f)
      let wd := subWidth c f.s1.toNat on
      let v := lredSteps (lredOp f.mdf.toNat b.nmode t) (Nat.log2 wd) 1
        ((List.range 64).map (fun i => (c.source f.s0.toNat t i, 0)))
      let live := fun (i : Nat) => on.any (fun j => j / wd == i / wd)
      let flags := (List.range 64).foldl (fun a i => if live i then a ||| (v.getD i (0, 0)).2 else a) 0
      finish f t false (on.map (fun i => (i, (v.getD i (0, 0)).1))) flags d k w b))

/-- vote of R265 over the lanes below LANES. -/
def voteValue (c : Lcx) (f : LaneWord) : Nat :=
  let m := (c.w.p (f.s0.toNat - 1544)) &&& laneCountMask c.b.lanes
  match f.mdf.toNat with
  | 0 => if m = 0 then 0 else 1
  | 1 => if m = laneCountMask c.b.lanes then 1 else 0
  | _ => m.toNat

/-- VOTE (R265). -/
def execVote (f : LaneWord) (s : State) : Host.Outcome State Fault Refusal :=
  laneWord s (laneChecked ⟨fun t => t == 15, fun _ m => m < 3, false, if f.mdf.toNat < 2 then .pdst else .dst 7, .psrc, .unused, .unused, .unused⟩
    f true false
    (fun d k w b =>
      let v := voteValue (lcx d w b) f
      finish f 7 (decide (f.mdf.toNat < 2)) ((lanesOn (execMask w b f)).map (fun i => (i, v))) 0 d k w b))

/-- A lane word whose opcode is unassigned: the first check of R50. -/
def execUnassignedLaneWord (_x : BitVec 96) (s : State) : Host.Outcome State Fault Refusal :=
  laneWord s (fun d k w b => laneTrap d k w b .illInst 0 0)

end Sys2Proof.Machine
end

