-- ==== Sys2Proof/Machine/Dispatch.lean ====
section
/-!
DEFINITION. The dispatch: one meaning per instruction.
-/
namespace Sys2Proof.Machine

def exec (i : Instr) (s : State) : Host.Outcome State Fault Refusal :=
  match i with
  | .add d a b t => Sys2Proof.Machine.execAdd d a b t s
  | .sub d a b t => Sys2Proof.Machine.execSub d a b t s
  | .mul d a b t => Sys2Proof.Machine.execMul d a b t s
  | .mulhi d a b t => Sys2Proof.Machine.execMulhi d a b t s
  | .and d a b t => Sys2Proof.Machine.execAnd d a b t s
  | .or d a b t => Sys2Proof.Machine.execOr d a b t s
  | .xor d a b t => Sys2Proof.Machine.execXor d a b t s
  | .shl d a b t => Sys2Proof.Machine.execShl d a b t s
  | .shr d a b t => Sys2Proof.Machine.execShr d a b t s
  | .sra d a b t => Sys2Proof.Machine.execSra d a b t s
  | .min d a b t => Sys2Proof.Machine.execMin d a b t s
  | .max d a b t => Sys2Proof.Machine.execMax d a b t s
  | .popc d a b t => Sys2Proof.Machine.execPopc d a b t s
  | .clz d a b t => Sys2Proof.Machine.execClz d a b t s
  | .cmp d a b c r t => Sys2Proof.Machine.execCmp d a b c r t s
  | .garrive d a b => Sys2Proof.Machine.execGarrive d a b s
  | .gwait d a b => Sys2Proof.Machine.execGwait d a b s
  | .gtry d a b => Sys2Proof.Machine.execGtry d a b s
  | .cwaitG d a b => Sys2Proof.Machine.execCwaitG d a b s
  | .cwaitX d a b => Sys2Proof.Machine.execCwaitX d a b s
  | .cwaitA d a b => Sys2Proof.Machine.execCwaitA d a b s
  | .cwaitT d a b => Sys2Proof.Machine.execCwaitT d a b s
  | .fenceAcq d a b sc => Sys2Proof.Machine.execFenceAcq d a b sc s
  | .fenceRel d a b sc => Sys2Proof.Machine.execFenceRel d a b sc s
  | .fenceFull d a b sc => Sys2Proof.Machine.execFenceFull d a b sc s
  | .tokPass d a b => Sys2Proof.Machine.execTokPass d a b s
  | .tokTake d a b => Sys2Proof.Machine.execTokTake d a b s
  | .vgrow d a b => Sys2Proof.Machine.execVgrow d a b s
  | .vshrink d a b => Sys2Proof.Machine.execVshrink d a b s
  | .ret d a b => Sys2Proof.Machine.execRet d a b s
  | .jtab d a b => Sys2Proof.Machine.execJtab d a b s
  | .srd d a b => Sys2Proof.Machine.execSrd d a b s
  | .swr d a b => Sys2Proof.Machine.execSwr d a b s
  | .cclean a => Sys2Proof.Machine.execCclean a s
  | .cflush a => Sys2Proof.Machine.execCflush a s
  | .cdrop a => Sys2Proof.Machine.execCdrop a s
  | .czero a => Sys2Proof.Machine.execCzero a s
  | .trap d a b => Sys2Proof.Machine.execTrap d a b s
  | .sysc d a b => Sys2Proof.Machine.execSysc d a b s
  | .halt d a b => Sys2Proof.Machine.execHalt d a b s
  | .addiS64 d a imm => Sys2Proof.Machine.execAddiS64 d a imm s
  | .addiS32 d a imm => Sys2Proof.Machine.execAddiS32 d a imm s
  | .andiB64 d a imm => Sys2Proof.Machine.execAndiB64 d a imm s
  | .oriB64 d a imm => Sys2Proof.Machine.execOriB64 d a imm s
  | .xoriB64 d a imm => Sys2Proof.Machine.execXoriB64 d a imm s
  | .shlB64Imm d a imm => Sys2Proof.Machine.execShlB64Imm d a imm s
  | .shrB64Imm d a imm => Sys2Proof.Machine.execShrB64Imm d a imm s
  | .sraB64Imm d a imm => Sys2Proof.Machine.execSraB64Imm d a imm s
  | .muliS64 d a imm => Sys2Proof.Machine.execMuliS64 d a imm s
  | .cmpiEqS64 d a imm => Sys2Proof.Machine.execCmpiEqS64 d a imm s
  | .cmpiLtS64 d a imm => Sys2Proof.Machine.execCmpiLtS64 d a imm s
  | .cmpiLtN64 d a imm => Sys2Proof.Machine.execCmpiLtN64 d a imm s
  | .ldS8 d a imm => Sys2Proof.Machine.execLdS8 d a imm s
  | .ldN8 d a imm => Sys2Proof.Machine.execLdN8 d a imm s
  | .ldS16 d a imm => Sys2Proof.Machine.execLdS16 d a imm s
  | .ldN16 d a imm => Sys2Proof.Machine.execLdN16 d a imm s
  | .ldS32 d a imm => Sys2Proof.Machine.execLdS32 d a imm s
  | .ldN32 d a imm => Sys2Proof.Machine.execLdN32 d a imm s
  | .ldB64 d a imm => Sys2Proof.Machine.execLdB64 d a imm s
  | .stB8 d a imm => Sys2Proof.Machine.execStB8 d a imm s
  | .stB16 d a imm => Sys2Proof.Machine.execStB16 d a imm s
  | .stB32 d a imm => Sys2Proof.Machine.execStB32 d a imm s
  | .stB64 d a imm => Sys2Proof.Machine.execStB64 d a imm s
  | .lx d a imm => Sys2Proof.Machine.execLx d a imm s
  | .land d a imm => Sys2Proof.Machine.execLand d a imm s
  | .b p o => Sys2Proof.Machine.execB p o s
  | .call p o => Sys2Proof.Machine.execCall p o s
  | .pfx h next => Sys2Proof.Machine.execPfx h next s
  | .winBind d a b => Sys2Proof.Machine.execWinBind d a b s
  | .winState d a b => Sys2Proof.Machine.execWinState d a b s
  | .winFree d a b => Sys2Proof.Machine.execWinFree d a b s
  | .mcjoin d a b => Sys2Proof.Machine.execMcjoin d a b s
  | .mcleave d a b => Sys2Proof.Machine.execMcleave d a b s
  | .mma d a b => Sys2Proof.Machine.execMma d a b s
  | .mmaN128 d a b => Sys2Proof.Machine.execMmaN128 d a b s
  | .mcommit d a b => Sys2Proof.Machine.execMcommit d a b s
  | .mwait d a b => Sys2Proof.Machine.execMwait d a b s
  | .ppoint d a b => Sys2Proof.Machine.execPpoint d a b s
  | .mdrain d a imm => Sys2Proof.Machine.execMdrain d a imm s
  | .nestLaunch d a b => Sys2Proof.Machine.execNestLaunch d a b s
  | .nestGrow d a b => Sys2Proof.Machine.execNestGrow d a b s
  | .nestIdx d a b => Sys2Proof.Machine.execNestIdx d a b s
  | .pdone d a b => Sys2Proof.Machine.execPdone d a b s
  | .satom d a b => Sys2Proof.Machine.execSatom d a b s
  | .rtinst d a b => Sys2Proof.Machine.execRtinst d a b s
  | .kvinv d a b => Sys2Proof.Machine.execKvinv d a b s
  | .collStart d a b => Sys2Proof.Machine.execCollStart d a b s
  | .unassignedScalarWord w => Sys2Proof.Machine.execUnassignedScalarWord w s
  | .laneNop w => Sys2Proof.Machine.execLaneNop w s
  | .laneMov w => Sys2Proof.Machine.execLaneMov w s
  | .laneAdd w => Sys2Proof.Machine.execLaneAdd w s
  | .laneSub w => Sys2Proof.Machine.execLaneSub w s
  | .laneMul w => Sys2Proof.Machine.execLaneMul w s
  | .laneMulhi w => Sys2Proof.Machine.execLaneMulhi w s
  | .laneMad w => Sys2Proof.Machine.execLaneMad w s
  | .laneMin w => Sys2Proof.Machine.execLaneMin w s
  | .laneMax w => Sys2Proof.Machine.execLaneMax w s
  | .laneAbs w => Sys2Proof.Machine.execLaneAbs w s
  | .laneNeg w => Sys2Proof.Machine.execLaneNeg w s
  | .laneSel w => Sys2Proof.Machine.execLaneSel w s
  | .laneAnd w => Sys2Proof.Machine.execLaneAnd w s
  | .laneOr w => Sys2Proof.Machine.execLaneOr w s
  | .laneXor w => Sys2Proof.Machine.execLaneXor w s
  | .laneNot w => Sys2Proof.Machine.execLaneNot w s
  | .laneShl w => Sys2Proof.Machine.execLaneShl w s
  | .laneShr w => Sys2Proof.Machine.execLaneShr w s
  | .laneSra w => Sys2Proof.Machine.execLaneSra w s
  | .lanePopc w => Sys2Proof.Machine.execLanePopc w s
  | .laneClz w => Sys2Proof.Machine.execLaneClz w s
  | .laneCmp w => Sys2Proof.Machine.execLaneCmp w s
  | .fma w => Sys2Proof.Machine.execFma w s
  | .rndi w => Sys2Proof.Machine.execRndi w s
  | .exp2 w => Sys2Proof.Machine.execExp2 w s
  | .log2 w => Sys2Proof.Machine.execLog2 w s
  | .rcp w => Sys2Proof.Machine.execRcp w s
  | .rsqrt w => Sys2Proof.Machine.execRsqrt w s
  | .sqrt w => Sys2Proof.Machine.execSqrt w s
  | .sin w => Sys2Proof.Machine.execSin w s
  | .cos w => Sys2Proof.Machine.execCos w s
  | .tanh w => Sys2Proof.Machine.execTanh w s
  | .sigmoid w => Sys2Proof.Machine.execSigmoid w s
  | .gelu w => Sys2Proof.Machine.execGelu w s
  | .cvt w => Sys2Proof.Machine.execCvt w s
  | .pand w => Sys2Proof.Machine.execPand w s
  | .por w => Sys2Proof.Machine.execPor w s
  | .pxor w => Sys2Proof.Machine.execPxor w s
  | .pandn w => Sys2Proof.Machine.execPandn w s
  | .pnot w => Sys2Proof.Machine.execPnot w s
  | .shfl w => Sys2Proof.Machine.execShfl w s
  | .lred w => Sys2Proof.Machine.execLred w s
  | .vote w => Sys2Proof.Machine.execVote w s
  | .laneLd w => Sys2Proof.Machine.execLaneLd w s
  | .laneSt w => Sys2Proof.Machine.execLaneSt w s
  | .ldTap w => Sys2Proof.Machine.execLdTap w s
  | .lds w => Sys2Proof.Machine.execLds w s
  | .sts w => Sys2Proof.Machine.execSts w s
  | .ldr w => Sys2Proof.Machine.execLdr w s
  | .str w => Sys2Proof.Machine.execStr w s
  | .atom w => Sys2Proof.Machine.execAtom w s
  | .pf w => Sys2Proof.Machine.execPf w s
  | .kvx w => Sys2Proof.Machine.execKvx w s
  | .unassignedLaneWord w => Sys2Proof.Machine.execUnassignedLaneWord w s
  | .routineInvocation pan bank => Sys2Proof.Machine.execRoutineInvocation pan bank s
  | .routineCommit pan bank => Sys2Proof.Machine.execRoutineCommit pan bank s
  | .routineReply op lane => Sys2Proof.Machine.execRoutineReply op lane s
  | .tagPipelineTake pan bank pos => Sys2Proof.Machine.execTagPipelineTake pan bank pos s
  | .conflictQueueRelease pan pos => Sys2Proof.Machine.execConflictQueueRelease pan pos s
  | .hbmFillComplete pan line => Sys2Proof.Machine.execHbmFillComplete pan line s
  | .migrationLineArrival pan line => Sys2Proof.Machine.execMigrationLineArrival pan line s
  | .migrationAck pan line => Sys2Proof.Machine.execMigrationAck pan line s
  | .evictionNotice pan line => Sys2Proof.Machine.execEvictionNotice pan line s
  | .pin cluster op line => Sys2Proof.Machine.execPin cluster op line s
  | .unpin cluster line => Sys2Proof.Machine.execUnpin cluster line s
  | .pcarveWrite pan v => Sys2Proof.Machine.execPcarveWrite pan v s
  | .wayDrainComplete pan => Sys2Proof.Machine.execWayDrainComplete pan s
  | .laneLoadReturn op line => Sys2Proof.Machine.execLaneLoadReturn op line s
  | .storeAck op line => Sys2Proof.Machine.execStoreAck op line s
  | .farEndAck op line => Sys2Proof.Machine.execFarEndAck op line s
  | .remoteScratchAccess op lane => Sys2Proof.Machine.execRemoteScratchAccess op lane s
  | .remoteScratchReturn op lane => Sys2Proof.Machine.execRemoteScratchReturn op lane s
  | .walkStart die => Sys2Proof.Machine.execWalkStart die s
  | .walkComplete die walker => Sys2Proof.Machine.execWalkComplete die walker s
  | .kvxEntryReturn op => Sys2Proof.Machine.execKvxEntryReturn op s
  | .kvinvAck op cluster => Sys2Proof.Machine.execKvinvAck op cluster s
  | .l1AgeOut cluster line => Sys2Proof.Machine.execL1AgeOut cluster line s
  | .ptbaseWrite part v => Sys2Proof.Machine.execPtbaseWrite part v s
  | .xinvcGo part v => Sys2Proof.Machine.execXinvcGo part v s
  | .shootdownDone part => Sys2Proof.Machine.execShootdownDone part s
  | .copyJobStart engine => Sys2Proof.Machine.execCopyJobStart engine s
  | .windowFillComplete crew win => Sys2Proof.Machine.execWindowFillComplete crew win s
  | .groupAsk part gid => Sys2Proof.Machine.execGroupAsk part gid s
  | .groupTimerExpiry part gid => Sys2Proof.Machine.execGroupTimerExpiry part gid s
  | .groupOffer part gid mem => Sys2Proof.Machine.execGroupOffer part gid mem s
  | .groupAnswer part gid mem => Sys2Proof.Machine.execGroupAnswer part gid mem s
  | .groupFillLine part gid mem line => Sys2Proof.Machine.execGroupFillLine part gid mem line s
  | .groupDone part gid mem => Sys2Proof.Machine.execGroupDone part gid mem s
  | .completionWritePerformed part gid => Sys2Proof.Machine.execCompletionWritePerformed part gid s
  | .lingerExpiry part gid pos => Sys2Proof.Machine.execLingerExpiry part gid pos s
  | .matrixOpStart cluster op => Sys2Proof.Machine.execMatrixOpStart cluster op s
  | .matrixOpComplete cluster op => Sys2Proof.Machine.execMatrixOpComplete cluster op s
  | .drainPerform cluster op => Sys2Proof.Machine.execDrainPerform cluster op s
  | .gateArrival crew => Sys2Proof.Machine.execGateArrival crew s
  | .gtryTimeout warp => Sys2Proof.Machine.execGtryTimeout warp s
  | .vgrowGrant cluster pipe => Sys2Proof.Machine.execVgrowGrant cluster pipe s
  | .vgrowRefuse cluster pipe => Sys2Proof.Machine.execVgrowRefuse cluster pipe s
  | .gangPlacement nest => Sys2Proof.Machine.execGangPlacement nest s
  | .pointRetire nest point => Sys2Proof.Machine.execPointRetire nest point s
  | .crewPreempt crew => Sys2Proof.Machine.execCrewPreempt crew s
  | .tsaveExpiry crew => Sys2Proof.Machine.execTsaveExpiry crew s
  | .crewSave crew => Sys2Proof.Machine.execCrewSave crew s
  | .crewRestore nest gang => Sys2Proof.Machine.execCrewRestore nest gang s
  | .nestPreempt nest => Sys2Proof.Machine.execNestPreempt nest s
  | .partitionPreempt part => Sys2Proof.Machine.execPartitionPreempt part s
  | .arrivalReturn pos => Sys2Proof.Machine.execArrivalReturn pos s
  | .trapResume warp => Sys2Proof.Machine.execTrapResume warp s
  | .tansWrite part v => Sys2Proof.Machine.execTansWrite part v s
  | .fresWrite part v => Sys2Proof.Machine.execFresWrite part v s
  | .notify queue v => Sys2Proof.Machine.execNotify queue v s
  | .packetNop slot => Sys2Proof.Machine.execPacketNop slot s
  | .packetLaunch slot => Sys2Proof.Machine.execPacketLaunch slot s
  | .packetWait slot => Sys2Proof.Machine.execPacketWait slot s
  | .packetSignal slot => Sys2Proof.Machine.execPacketSignal slot s
  | .launchRetry slot => Sys2Proof.Machine.execLaunchRetry slot s
  | .completionSignal pos => Sys2Proof.Machine.execCompletionSignal pos s
  | .slotPoll slot => Sys2Proof.Machine.execSlotPoll slot s
  | .qcbWrite queue block => Sys2Proof.Machine.execQcbWrite queue block s
  | .scheduleDecision part => Sys2Proof.Machine.execScheduleDecision part s
  | .schedulerTick => Sys2Proof.Machine.execSchedulerTick s
  | .queueMapped200us slot => Sys2Proof.Machine.execQueueMapped200us slot s
  | .queueUnmap slot => Sys2Proof.Machine.execQueueUnmap slot s
  | .waitMonitorArm slot cond => Sys2Proof.Machine.execWaitMonitorArm slot cond s
  | .waitMonitorFire slot => Sys2Proof.Machine.execWaitMonitorFire slot s
  | .waitMonitorPoll slot => Sys2Proof.Machine.execWaitMonitorPoll slot s
  | .pctlWrite part v => Sys2Proof.Machine.execPctlWrite part v s
  | .pwinWrite part win v => Sys2Proof.Machine.execPwinWrite part win v s
  | .apertureAccess acc => Sys2Proof.Machine.execApertureAccess acc s
  | .featctlGo => Sys2Proof.Machine.execFeatctlGo s
  | .featctlReload => Sys2Proof.Machine.execFeatctlReload s
  | .functionLevelReset => Sys2Proof.Machine.execFunctionLevelReset s
  | .powerOn => Sys2Proof.Machine.execPowerOn s
  | .fwtimeout => Sys2Proof.Machine.execFwtimeout s
  | .bootok => Sys2Proof.Machine.execBootok s
  | .powerSample milliwatts => Sys2Proof.Machine.execPowerSample milliwatts s
  | .h15goStart stack => Sys2Proof.Machine.execH15goStart stack s
  | .cwctlRetrain port => Sys2Proof.Machine.execCwctlRetrain port s
  | .cwselfWrite v => Sys2Proof.Machine.execCwselfWrite v s
  | .cwrqGo v => Sys2Proof.Machine.execCwrqGo v s
  | .flitReceive port flit => Sys2Proof.Machine.execFlitReceive port flit s
  | .flitAck port seq refused => Sys2Proof.Machine.execFlitAck port seq refused s
  | .portDown port => Sys2Proof.Machine.execPortDown port s
  | .causewayRequest port => Sys2Proof.Machine.execCausewayRequest port s
  | .collStep coll => Sys2Proof.Machine.execCollStep coll s
  | .collComplete coll => Sys2Proof.Machine.execCollComplete coll s
  | .collAbort coll attempt => Sys2Proof.Machine.execCollAbort coll attempt s
  | .collReady coll attempt rank => Sys2Proof.Machine.execCollReady coll attempt rank s
  | .registerWrite addr v => Sys2Proof.Machine.execRegisterWrite addr v s
  | .scalarLoadReturn op => Sys2Proof.Machine.execScalarLoadReturn op s
  | .trrWrite part fault v => Sys2Proof.Machine.execTrrWrite part fault v s
  | .nestRestore nest => Sys2Proof.Machine.execNestRestore nest s
  | .partitionRestore part => Sys2Proof.Machine.execPartitionRestore part s
  | .pwrctlWrite v => Sys2Proof.Machine.execPwrctlWrite v s
  | .railGood rail => Sys2Proof.Machine.execRailGood rail s
  | .h15goDone stack dr => Sys2Proof.Machine.execH15goDone stack dr s
  | .causewayPortUp port => Sys2Proof.Machine.execCausewayPortUp port s
  | .zeroingComplete part => Sys2Proof.Machine.execZeroingComplete part s

end Sys2Proof.Machine
end

