-- ==== Sys2Proof/Machine/Issue.lean ====
section
/-!
DEFINITION. Fetching the next word of a scalar thread or a lane stream (R32, R213), time, and placing a word for the next step.
-/
namespace Sys2Proof.Machine

/-! ### Whose words may issue -/

/-- The crew lets its warps issue: it serves a point of a nest that goes on, and no save has stopped it (R385, R389, R395). -/
def crewIssues (d : Dev) (w : Warp) : Bool :=
  match d.crewOf w with
  | some c =>
    c.point.isSome && !c.stopping && (match d.nests.get? c.id.nest with
      | some n => !n.ending
      | none => false)
  | none => false

/-- Nothing but its next word keeps the scalar thread (R360): no install of it is in progress (R361), and no invocation that acts as an
acquire, which holds it back until it returns (R143, R313). -/
def scalarCan (d : Dev) (w : Warp) : Bool :=
  (w.park == .run || w.park == .again) && w.install.isNone && w.stop.isNone && w.acquires.isEmpty && crewIssues d w

/-- Nothing but its next word keeps the lane stream: a block waits, and no replay or window wait is unresolved (R81, R186, R360). A word
parked on a window that has returned to absent issues again, and touches the window itself (R159, log 101). -/
def laneCan (d : Dev) (w : Warp) : Bool :=
  !w.queue.isEmpty && w.stop.isNone && crewIssues d w && (match w.lpark with
    | .run => true
    | .again => true
    | .replay _ _ l => l.isEmpty
    | .fetch l => l.isEmpty
    | .window ws l free => l.isEmpty && ws.all (winLets d w.crewKey free))

/-! ### Fetching -/

/-- Fetches the 32-bit word at an address of the scalar stream, or says what became of the attempt (R32, R70, R80). -/
def fetchScalar (d : Dev) (k : Nat) (w : Warp) (a : W64) : Nat ⊕ Dev :=
  if !inCode d w a then .inr (protFault d k w .execProt)
  else match aform a, xlate d w.xs w.cluster (d.partOf w) a.toNat .exec with
    | .va _, .hit pa _ => .inl (devReadN d pa 4)
    | _, _ => .inr (withVa d k w a (fun v => withXlate d k w v .exec 3 (fun _ _ => d)))

/-- The scalar instruction at SPC: the word, with its successor when it is a prefix (R30). -/
def scalarInstr (d : Dev) (k : Nat) (w : Warp) : Dev × Option Instr :=
  match fetchScalar d k w w.spc with
  | .inr d => (d, none)
  | .inl v =>
    let go := fun (u : Nat) => match decodeScalarBytes (bytesOf (v + 2 ^ 32 * u) 8) with
      | .ok i => (d, some i)
      | .error _ => (d, none)
    if v / 2 ^ 26 = 63 then
      match fetchScalar d k w (w.spc + 4) with
      | .inr d => (d, none)
      | .inl u => go u
    else go 0

/-- One 32-bit piece of a lane word: the translations that lx obtained hold until the block's last word is fetched (R84, R214); a block
that a restore has brought back translates again (log 81). -/
def fetchLane (d : Dev) (w : Warp) (b : Block) (a : Nat) : Nat ⊕ Xl :=
  match xlate d (b.xs ++ w.xl) w.cluster (d.partOf w) a .exec with
  | .hit pa _ => .inl (devReadN d pa 4)
  | x => .inr x

/-- What becomes of a lane stream whose fetch has no translation: a miss waits for its walk, NOTMAPPED for the resolution of its record
(R80), and a protection fault is taken (log 81). -/
def laneFetchFails (d : Dev) (k : Nat) (w : Warp) (b : Block) (a : Nat) : Xl → Dev
  | .hit .. => d
  | .miss => laneStall (addMiss d (w.cluster / 64) (d.partOf w) a (.lanes k)) k w
  | .fault .notMapped =>
    let (d, q) := addFault d (d.partOf w) (a / 65536 * 65536) 0 0 .notMapped 3 w.cluster w.wslot
    (leavePipe d w).setWarp k { w with lpark := .fetch [q], xl := [], lready := d.clock + 1 }
  | .fault c => laneTrap d k w b .prot 0 (BitVec.ofNat 64 c.num)

/-- The lane instruction at the issue point of a warp (R213). -/
def laneInstr (d : Dev) (k : Nat) (w : Warp) : Dev × Option Instr :=
  match w.queue with
  | [] => (d, none)
  | b :: _ =>
    let a := laneAddr w b
    match fetchLane d w b a, fetchLane d w b (a + 4), fetchLane d w b (a + 8) with
    | .inl x, .inl y, .inl z => match decodeLaneBytes (bytesOf (x + 2 ^ 32 * y + 2 ^ 64 * z) 12) with
      | .ok i => (d, some i)
      | .error _ => (d, none)
    | .inr x, _, _ => (laneFetchFails d k w b a x, none)
    | _, .inr x, _ => (laneFetchFails d k w b (a + 4) x, none)
    | _, _, .inr x => (laneFetchFails d k w b (a + 8) x, none)

/-- Time passes, and free values go on (log 3, log 26); the trap records of the clocks that have passed are written (R387), installs go on
(R131), and acquires whose waits are over complete (R143). -/
def passTime (dt : Nat) (d : Dev) : Dev :=
  let d := d.parts.foldl (fun d e => flushRecords d e.1) { d with clock := d.clock + dt, free := d.free + 1, actor := .none }
  let d := installsGo d
  d.warps.foldl (fun d e => settleAcquires d e.1 e.2) d

/-- Time passes for the machine; after a start that has failed the next one begins (R434). -/
def State.wait (s : State) (dt : Nat) : State :=
  let r := startAgain s.boot (passTime dt s.dev)
  { s with boot := r.1, dev := r.2 }

/-- Requests go out of the clusters that a turn lists (R459; log 2). -/
def sendAll (l : List (Nat × Nat)) (d : Dev) : Dev := l.foldl (fun d e => sendOne d e.1 e.2) d

/-! ### Placing a word (log 21) -/

/-- The record of the nest that a placed word belongs to: scalar code at 64 KiB, 64 bytes long, one warp with 48 granules. -/
def placeRecord : BitVec 2048 :=
  BitVec.ofNat 2048 (0x10000 + 2 ^ 64 * 0x10000 + 2 ^ 128 * 0x10000 + 2 ^ 384 * 64 + 2 ^ 448 * (48 * 4096))

def placeNest : Nest :=
  ⟨0, 0, 0, placeRecord, [], [0, 0, 0, 0], [], none, 1, 1, none, none, [⟨⟨[0], 0⟩, some 0, false, 0, false⟩], [], [], 1, 1, [], false,
    false, 0, none⟩

def placeCrew : Crew :=
  ⟨⟨0, 0, 0, 0⟩, 0, 0, 0, 0, [0], [], [], [], 0, 0, [], 0, some ⟨[0], 0⟩, [], .none, 0, none⟩

/-- The held translation of the page that the word is fetched from. -/
def placeX : List (Nat × XRes) := [(1, .leaf ⟨0x10000, 0, 0, true, true⟩)]

/-- The warp in slot 0 of cluster 0, at the word in one stream. -/
def placeWarp (lane : Bool) (d : Dev) : Warp :=
  let w := (d.warps.get? 0).getD (freshWarp placeNest 0 0 0 0 0 0)
  { w with
    cluster := 0, wslot := 0, pipe := 0, cslot := 0, wcrew := 0, spc := 0x10000, park := .run, lpark := .run, stop := none, batchErr := []
    xs := placeX, xl := placeX, install := none, ready := 0, rank := 0, lready := 0, lword := 0
    queue := if lane then [⟨0x10000, 1, w.sregs, w.nmode, w.lanes, w.valloc, placeX, false⟩] else w.queue }

/-- Stores a word's bytes at 64 KiB and puts the warp, its crew, its nest and its partition in place for the next turn. -/
def placeWord (lane : Bool) (n w : Nat) (d : Dev) : Dev :=
  let p := d.part 0
  let pipe := d.pipe 0 0
  let cl := d.cluster 0
  ((({ d with
    mem := memWriteN d.mem 0x10000 n w
    warps := d.warps.set 0 (placeWarp lane d)
    crews := d.crews.set 0 placeCrew
    nests := d.nests.set 0 placeNest }).setPart 0 { p with pctl := p.pctl ||| 1#64, pwin := p.pwin.set 0 0x2001#64 }).setCluster 0 { cl with issued := 0 }).setPipe 0 0
    { pipe with cur := none, hold := 0, issued := 0 }

end Sys2Proof.Machine
end

