-- ==== Sys2Proof/Machine/Choose.lean ====
section
/-!
DEFINITION. Choosing a warp (R360 to R364): which scalar threads and lane streams can issue their next word, the choice among them, and
what the agent of a turn does.
-/
namespace Sys2Proof.Machine

/-! ### What can issue (R360; log 5) -/

/-- What the scalar front end does for a warp: its instruction, or the data error of its last batch (R287, R385). -/
def scalarTurn (k : Nat) (w : Warp) (d : Dev) : Dev × Option Instr :=
  match w.batchErr with
  | e :: r => (scalarTrap d k { w with batchErr := r } 0 .dataErr e [], none)
  | [] => scalarInstr { d with actor := .scalar k } k w

/-- What a lane pipe does for a warp. -/
def laneTurn (k : Nat) (w : Warp) (d : Dev) : Dev × Option Instr := laneInstr { d with actor := .lane k } k w

/-- The device once the turn's instruction has executed. -/
def turnResult (r : Dev × Option Instr) : Option Dev :=
  match r with
  | (d, none) => some d
  | (d, some i) => match exec i ⟨[], Boot.reset, d⟩ with
    | .next s => some s.dev
    | _ => none

/-- The next word of a scalar thread cannot issue yet: it would only wait (R360, R361). -/
def scalarBlocked (d : Dev) (k : Nat) (w : Warp) : Bool :=
  match turnResult (scalarTurn k w d) with
  | some r => (r.warps.get? k).map (·.park) == some .again && r == stall { d with actor := .scalar k } k w
  | none => false

/-- The same of a lane stream (R246, R360). -/
def laneBlocked (d : Dev) (k : Nat) (w : Warp) : Bool :=
  match turnResult (laneTurn k w d) with
  | some r =>
    let s := laneStall { d with actor := .lane k } k w
    r.warps.get? k == s.warps.get? k && r == s
  | none => false

/-- A thread whose word can issue for the first time since it last issued or woke becomes runnable, with READY now; one whose word cannot
is not runnable (R360). -/
def lookScalar (d : Dev) (k : Nat) (w : Warp) : Warp :=
  if (w.park == .run || w.park == .again) && decide (w.ready ≤ d.clock) then
    if scalarCan d w && !scalarBlocked d k w then (if w.park = .again then { w with park := .run, ready := d.clock, rank := 0 } else w)
    else { w with park := .again }
  else w

/-- The same of a lane stream with a block, and LREADY. -/
def lookLane (d : Dev) (k : Nat) (w : Warp) : Warp :=
  if !w.queue.isEmpty && (w.lpark == .run || w.lpark == .again) && decide (w.lready ≤ d.clock) then
    if laneCan d w && !laneBlocked d k w then (if w.lpark = .again then { w with lpark := .run, lready := d.clock } else w)
    else { w with lpark := .again }
  else w

/-- A front end sees which threads of its cluster are runnable. -/
def lookFront (c : Nat) (d : Dev) : Dev :=
  { d with warps := d.warps.map (fun e => if e.2.cluster = c then (e.1, lookScalar d e.1 e.2) else e) }

/-- A lane pipe sees which of its streams can issue. -/
def lookPipe (c p : Nat) (d : Dev) : Dev :=
  { d with warps := d.warps.map (fun e => if e.2.cluster = c ∧ e.2.pipe = p then (e.1, lookLane d e.1 e.2) else e) }

/-- The stream's next word can issue. -/
def laneRuns (d : Dev) (k : Nat) (w : Warp) : Bool :=
  laneCan d w && w.lpark != .again && (w.lpark == .run || !laneBlocked d k w)

/-! ### The choice (R362, R363) -/

/-- A candidate with its stamp, READY or LREADY. -/
structure Cand where
  key : Nat
  crew : Nat
  wcrew : Nat
  stamp : Nat
  rank : Nat
  deriving DecidableEq, Repr

/-- The oldest of candidates that rise in the slot: the least stamp; of those, a warp woken by an earlier firing is older than its crew's
woken by a later one (R366); then the lowest warp slot. -/
def oldestCand (now : Nat) (l : List Cand) : Option Nat :=
  let least := l.foldl (fun m c => Nat.min m c.stamp) now
  let t := l.filter (fun c => c.stamp == least)
  (t.find? (fun x => !t.any (fun y => y.crew == x.crew && y.rank != 0 && decide (y.rank < x.rank)))).map (·.key)

/-- choose_scalar of R362 among the candidates whose stamp has come; the lane pipes use it too (R363). -/
def chooseCand (d : Dev) (l : List Cand) : Option Nat :=
  let r := l.filter (fun c => c.stamp ≤ d.clock)
  let aged := r.filter (fun c => c.stamp + 64 ≤ d.clock)
  if !aged.isEmpty then oldestCand d.clock aged
  else
    let holder := fun (c : Cand) => ((d.crews.get? c.crew).map (·.token)).getD 0
    let held := fun (c : Cand) => c.wcrew != holder c && r.any (fun h => h.crew == c.crew && h.wcrew == holder c)
    oldestCand d.clock (r.filter (fun c => !held c))

/-- The runnable threads of a cluster, once its front end has looked (R360). -/
def scalarCands (d : Dev) (c : Nat) : List Cand :=
  (d.warps.filter (fun e => e.2.cluster == c && e.2.park == .run && scalarCan d e.2)).map
    (fun e => ⟨e.1, e.2.crewKey, e.2.wcrew, e.2.ready, e.2.rank⟩)

/-- The candidates of a pipe, once it has looked (R360). -/
def laneCands (d : Dev) (c p : Nat) : List Cand :=
  (d.warps.filter (fun e => e.2.cluster == c && e.2.pipe == p && laneRuns d e.1 e.2)).map
    (fun e => ⟨e.1, e.2.crewKey, e.2.wcrew, e.2.lready, 0⟩)

/-- The scalar front end of a cluster: one word in a core clock (R362). -/
def frontEnd (c : Nat) (d : Dev) : Dev × Option Instr :=
  let d := lookFront c d
  let x := d.cluster c
  if x.issued = d.clock + 1 then (d, none)
  else match (chooseCand d (scalarCands d c)).bind (fun k => (d.warps.get? k).map (fun w => (k, w))) with
    | none => (d, none)
    | some (k, w) => scalarTurn k w (d.setCluster c { x with issued := d.clock + 1 })

/-- The yield bit of the word at the issue point (R47). -/
def headYields (d : Dev) (w : Warp) : Bool :=
  match w.queue with
  | [] => false
  | b :: _ => match fetchLane d w b (laneAddr w b) with
    | .inl x => x / 64 % 2 == 1
    | .inr _ => false

/-- A pipe issues the next word of a warp's block. -/
def pipeIssue (c p k : Nat) (w : Warp) (d : Dev) : Dev × Option Instr :=
  laneTurn k w (d.setPipe c p { d.pipe c p with cur := some k, issued := d.clock + 1 })

/-- The stream that a pipe takes at a switch point (R363). -/
def pipeNext (c p : Nat) (d : Dev) : Option (Nat × Warp) :=
  (chooseCand d (laneCands d c p)).bind (fun k => (d.warps.get? k).map (fun w => (k, w)))

/-- A switch point: the chosen stream's block takes the pipe (R363). -/
def pipeChoose (c p : Nat) (d : Dev) : Dev × Option Instr :=
  match pipeNext c p d with
  | none => (d, none)
  | some (k, w) => pipeIssue c p k w d

/-- The warp whose word a pipe would issue in this clock, before the special-function lanes are granted. -/
def pipeWants (c p : Nat) (d : Dev) : Option (Nat × Warp) :=
  let x := d.pipe c p
  if x.issued = d.clock + 1 then none
  else match x.cur with
    | none => if d.clock < x.hold then none else pipeNext c p d
    | some k => match d.warps.get? k with
      | some w => if w.lready ≤ d.clock ∧ laneRuns d k w then some (k, w) else none
      | none => none

/-- A special-function word (R253, R256). -/
def usesSfu (i : Instr) : Bool :=
  match i with
  | .exp2 _ | .log2 _ | .rcp _ | .rsqrt _ | .sqrt _ | .sin _ | .cos _ | .tanh _ | .sigmoid _ | .gelu _ => true
  | _ => false

/-- Each pipe of a cluster sees which of its streams can issue, and asks for the special-function lanes when the word that it would issue
needs them (R256, R363). -/
def lookPipes (c : Nat) (d : Dev) : Dev :=
  let d := (List.range 4).foldl (fun d p => d.setPipe c p { d.pipe c p with sfuq := none }) d
  let d := (List.range 4).foldl (fun d p => lookPipe c p d) d
  (List.range 4).foldl (fun d p => match pipeWants c p d with
    | some (k, w) => if ((laneTurn k w d).2.map usesSfu).getD false then d.setPipe c p { d.pipe c p with sfuq := some k } else d
    | none => d) d

/-- A lane pipe (R363). Between switch points the chosen warp's words alone issue, and its interlocks hold the pipe, unless the waiting
word has its yield bit set (R246); a warp that has trapped or parked is left, with the latches invalid (R22); the stall count of the word
before, and of a block's last word, holds the pipe all the same (R46). One word issues in a core clock. -/
def lanePipe (c p : Nat) (d : Dev) : Dev × Option Instr :=
  let d := lookPipes c d
  let leave := fun (d : Dev) (hold : Nat) => dropLatches (d.setPipe c p { d.pipe c p with cur := none, hold := hold }) c p
  if (d.pipe c p).issued = d.clock + 1 then (d, none)
  else match (d.pipe c p).cur with
  | none => if d.clock < (d.pipe c p).hold then (d, none) else pipeChoose c p d
  | some k =>
    match d.warps.get? k with
    | none => pipeChoose c p (leave d 0)
    | some w =>
      if !(w.pipe == p && w.cluster == c && laneCan d w) then
        if d.clock < w.lready then (leave d w.lready, none) else pipeChoose c p (leave d 0)
      else if d.clock < w.lready then (d, none)
      else if laneRuns d k w then pipeIssue c p k w d
      else if headYields d w && (chooseCand d (laneCands d c p)).isSome then pipeChoose c p (leave d 0)
      else (d, none)

/-! ### The agent of a turn -/

/-- A row of the opcode table that no word encodes: a step of the machine. -/
def isEvent (i : Instr) : Bool := encode i == .none

/-- What the agent of a turn does: the device with its preparation, and the instruction to execute. A word is no event. -/
def agentTurn (who : Who) (d : Dev) : Dev × Option Instr :=
  match who with
  | .front c => frontEnd c d
  | .pipe c p => lanePipe c p d
  | .event i => (d, if isEvent i then some i else none)

end Sys2Proof.Machine
end

