-- ==== Sys2Proof/Machine/Step.lean ====
section
/-!
DEFINITION. One step of the machine: the next agent of the schedule moves (log 2); and the placing of a word for the host's probes.
-/
namespace Sys2Proof.Machine

/-- One step: time passes to the next turn, requests leave the clusters that it lists, and its agent issues a word or makes its step. With no
turn left a core clock passes. -/
def step (s : State) : Host.Outcome State Fault Refusal :=
  match s.turns with
  | [] => .next (s.wait 1)
  | t :: r =>
    let s := s.wait t.dt
    match agentTurn t.who (sendAll t.sends s.dev) with
    | (d, none) => .next { s with turns := r, dev := d }
    | (d, some i) => exec i { s with turns := r, dev := d }

/-- The state with an instruction placed where the next step fetches it (log 21): a 96-bit word in the lane stream of pipe 0 of cluster
0, another in the scalar stream of cluster 0. -/
def State.withFetchWord (s : State) (nbits w : Nat) : State :=
  if nbits = 96 then { s with turns := [⟨0, [], .pipe 0 0⟩], dev := placeWord true 12 w s.dev }
  else { s with turns := [⟨0, [], .front 0⟩], dev := placeWord false 8 w s.dev }

end Sys2Proof.Machine
end

