-- ==== Sys2Proof/Safety.lean ====
section
/-!
DEFINITION. What counts as a safe run, in the terms the claims use: who issues a word, what the registers of the start and the
power sequence may hold, and that memory keeps its canonical form.
-/
namespace Sys2Proof.Machine

/-- Warp k, with the contents w, is issuing a word of its scalar stream. -/
abbrev Issuing (s : State) (k : Nat) (w : Warp) : Prop := s.dev.actor = .scalar k ∧ s.dev.warps.get? k = some w

/-- Warp k, with the contents w, is issuing a lane word of the block b. -/
abbrev LaneIssuing (s : State) (k : Nat) (w : Warp) (b : Block) : Prop :=
  s.dev.actor = .lane k ∧ s.dev.warps.get? k = some w ∧ w.queue.head? = some b

/-- The rows of the opcode table that only the start, the host's management writes and the power, memory and links harts make
(R428, R432 to R442, and R412's CWSELF); the end of a port's bring-up is one, since its results are measured (R435). -/
def isManagement : Instr → Bool
  | .registerWrite .. | .featctlGo | .featctlReload | .functionLevelReset | .powerOn | .fwtimeout | .bootok | .powerSample _
  | .h15goStart _ | .h15goDone .. | .pwrctlWrite _ | .railGood _ | .cwselfWrite _ | .causewayPortUp _ | .portDown _ => true
  | _ => false

/-- Steps of training: 0 to 6 passed, or 101 to 106 for a stack that failed the step after the last it passed (R441). -/
def trainLegal (t : Nat) : Bool := t ≤ 6 || (101 ≤ t && t ≤ 106)

/-- The registers of the start and of the power sequence hold what R434 to R441 let them hold: at most three starts in a row have
failed and BOOTSTAT shows their number, its reserved bits are 0, minimal mode and a finished start are exclusive with a start under way or due,
no rail is good that is not enabled, the throttle has 16 steps, FEATCTL has three bits, and the recovery window is in canonical form. -/
def Boot.legal (b : Boot) : Bool :=
  decide (b.fsc ≤ 3) && bits b.bootstat 3 1 == b.fsc && bits b.bootstat 63 17 == 0 &&
    (b.start == 0 || b.start == 1 || b.start == 10 || b.start == 12) && (b.start != 12 || b.fsc == 0) &&
    (bit b.bootstat 16 == (b.start == 12)) && (!bit b.bootstat 0 || b.start == 0) &&
    (b.pwrstat &&& ~~~ b.pwrctl) == 0#64 && decide (b.throttle ≤ 15) && bits b.featctl 63 3 == 0 &&
    b.h15go.all (fun e => e.2 == 0#64 || e.2 == 1#64) && b.trained.all (fun e => trainLegal e.2) && Memory.wf b.recovery

/-- A state is safe when memory has its canonical form and the registers of the start are legal. -/
def State.safe (s : State) : Bool := Memory.wf s.dev.mem && s.boot.legal

/-- An outcome that is a next state with a property. -/
def Answers (o : Host.Outcome State Fault Refusal) (P : State → Prop) : Prop := ∃ t, o = .next t ∧ P t

/-! ### How a scalar word ends -/

/-- The word has executed: the warp is w' but for its thread, which goes on at pc in the next clock; nothing else changes. -/
def ranTo (s : State) (k : Nat) (w' : Warp) (pc : W64) : Host.Outcome State Fault Refusal :=
  let after : Warp := { w' with spc := pc, park := .run, xs := [], rd := Reads.empty, ready := s.dev.clock + 1, rank := 0 }
  .next { s with dev := { s.dev with warps := s.dev.warps.set k after } }

/-- The word of n bytes has executed, and the thread goes on behind it (R27, R30). -/
def ran (s : State) (k : Nat) (w' : Warp) (n : Nat) : Host.Outcome State Fault Refusal := ranTo s k w' (w'.spc + BitVec.ofNat 64 n)

/-- The word has had no effect and is tried again in the next clock. -/
def waits (s : State) (k : Nat) (w : Warp) : Host.Outcome State Fault Refusal :=
  let after : Warp := { w with park := .again, ready := s.dev.clock + 1, rank := 0 }
  .next { s with dev := { s.dev with warps := s.dev.warps.set k after } }

/-- The key of the nest that a warp serves. -/
def nestKey (d : Dev) (w : Warp) : Nat := ((d.crewOf w).map (·.id.nest)).getD 0

/-- From s to t, warp k, which no trap had stopped, has taken one: it is stopped by the class and stream given until the record of this trap is
written, its scalar thread is at `spc`, and it is otherwise w; the record says what R386 asks of it and is among those to be written, by its clock,
cluster and slot; memory is as it was; an END class ends the warp's nest (R384 to R387, R389). -/
def TrapTaken (s t : State) (k : Nat) (w : Warp) (stream : Stream) (cls : Cls) (waddr : W64) (lmask : Mask) (aux : W64)
    (args : List W64) (spc : W64) : Prop :=
  t.boot = s.boot ∧ t.turns = s.turns ∧
  t.dev.warps.get? k = some { w with
    stop := some ⟨cls, stream, s.dev.nextId, none, false, []⟩, spc := spc, xs := [], xl := [], rd := Reads.empty, rl := Reads.empty, bind := none
    park := if w.park == .point || w.park == .save then w.park else .run } ∧
  t.dev.mem = s.dev.mem ∧
  (∃ r : TrapRec, (t.dev.part (s.dev.partOf w)).heldT = insertTrap r (s.dev.part (s.dev.partOf w)).heldT ∧ r.at_ = s.dev.clock ∧
    r.num = s.dev.nextId ∧ r.cls = cls ∧ r.stream = stream ∧ r.waddr = waddr ∧ r.spc = w.spc ∧ r.lmask = lmask ∧ r.aux = aux ∧ r.args = args ∧
    r.cluster = w.cluster ∧ r.wslot = w.wslot ∧ r.part = s.dev.partOf w) ∧
  (cls.ends = true → ∀ n, s.dev.nests.get? (nestKey s.dev w) = some n →
    ∃ n', t.dev.nests.get? (nestKey s.dev w) = some n' ∧ n'.ending = true)

/-- The word answers with the trap given, taken at a scalar word: an END class leaves the thread at the word, the others put it n bytes
on (R385). -/
def ScalarTrap (o : Host.Outcome State Fault Refusal) (s : State) (k : Nat) (w : Warp) (n : Nat) (cls : Cls) (aux : W64)
    (args : List W64) : Prop :=
  ∃ t, o = .next t ∧ TrapTaken s t k w .scalar cls w.spc 0 aux args (if cls.ends then w.spc else w.spc + BitVec.ofNat 64 n)

/-! ### Integer results in bit-vector arithmetic (R217, R218) -/

/-- An operation of the ALU group, numbered by minor[7:2], on operands of one width; sg reads them signed. -/
def aluBits {w : Nat} (op : Nat) (sg : Bool) (x y : BitVec w) : BitVec w :=
  match op with
  | 0 => x + y
  | 1 => x - y
  | 2 => x * y
  | 3 => if sg then ((x.signExtend (2 * w) * y.signExtend (2 * w)) >>> w).setWidth w
         else ((x.setWidth (2 * w) * y.setWidth (2 * w)) >>> w).setWidth w
  | 4 => x &&& y
  | 5 => x ||| y
  | 6 => x ^^^ y
  | 7 => x <<< (y.toNat % w)
  | 8 => x >>> (y.toNat % w)
  | 9 => x.sshiftRight (y.toNat % w)
  | 10 => if (if sg then x.sle y else x.ule y) then x else y
  | 11 => if (if sg then x.sle y else x.ule y) then y else x
  | 12 => BitVec.ofNat w ((List.range w).countP (fun i => x.getLsbD i))
  | _ => BitVec.ofNat w ((List.range w).takeWhile (fun i => !x.getMsbD i)).length

/-- The 64-bit result of operation op at type code t (R57, R217). -/
def aluResult (op : Nat) (t : BitVec 2) (x y : W64) : W64 :=
  match t.toNat with
  | 0 => aluBits op true x y
  | 1 => aluBits op false x y
  | 2 => (aluBits op true (x.setWidth 32) (y.setWidth 32)).signExtend 64
  | _ => (aluBits op false (x.setWidth 32) (y.setWidth 32)).setWidth 64

/-- A comparison of two patterns of one width, by condition and sign (R57, R219). -/
def cmpBits {w : Nat} (c : Nat) (sg : Bool) (x y : BitVec w) : Bool :=
  match c with
  | 0 => x == y
  | 1 => x != y
  | 2 => if sg then x.slt y else x.ult y
  | 3 => if sg then x.sle y else x.ule y
  | 4 => if sg then y.slt x else y.ult x
  | _ => if sg then y.sle x else y.ule x

/-- The comparison at a type code: the low 32 bits for codes 2 and 3; signed for 0 and 2 (R219). -/
def cmpResult (c : Nat) (t : BitVec 2) (x y : W64) : Bool :=
  match t.toNat with
  | 0 => cmpBits c true x y
  | 1 => cmpBits c false x y
  | 2 => cmpBits c true (x.setWidth 32) (y.setWidth 32)
  | _ => cmpBits c false (x.setWidth 32) (y.setWidth 32)


/-! ### Memory words of the scalar stream -/

/-- A scalar load in either form: major, destination, address register, immediate and length in bytes (R30, R224). -/
def loadForm : Instr → Option (Nat × BitVec 6 × BitVec 6 × W64 × Nat)
  | .ldS8 d a i => some (16, d, a, i.signExtend 64, 4)
  | .ldN8 d a i => some (17, d, a, i.signExtend 64, 4)
  | .ldS16 d a i => some (18, d, a, i.signExtend 64, 4)
  | .ldN16 d a i => some (19, d, a, i.signExtend 64, 4)
  | .ldS32 d a i => some (20, d, a, i.signExtend 64, 4)
  | .ldN32 d a i => some (21, d, a, i.signExtend 64, 4)
  | .ldB64 d a i => some (22, d, a, i.signExtend 64, 4)
  | .pfx h next =>
    let m := (next.extractLsb' 26 6).toNat
    if 16 ≤ m ∧ m ≤ 22 then
      some (m, next.extractLsb' 20 6, next.extractLsb' 14 6, (h ++ next.extractLsb' 0 14).signExtend 64, 8)
    else none
  | _ => none

/-- A scalar store in either form (R30, R224). -/
def storeForm : Instr → Option (Nat × BitVec 6 × BitVec 6 × W64 × Nat)
  | .stB8 d a i => some (24, d, a, i.signExtend 64, 4)
  | .stB16 d a i => some (25, d, a, i.signExtend 64, 4)
  | .stB32 d a i => some (26, d, a, i.signExtend 64, 4)
  | .stB64 d a i => some (27, d, a, i.signExtend 64, 4)
  | .pfx h next =>
    let m := (next.extractLsb' 26 6).toNat
    if 24 ≤ m ∧ m ≤ 27 then
      some (m, next.extractLsb' 20 6, next.extractLsb' 14 6, (h ++ next.extractLsb' 0 14).signExtend 64, 8)
    else none
  | _ => none

/-- The warp's word has read the n bytes at a virtual address, at pa: a translation that may be read, every line of them read, and no poison
among them. They are the number w.rd.value pa n. -/
def HasRead (d : Dev) (w : Warp) (va n pa : Nat) : Prop :=
  (∃ l, xlate d w.xs w.cluster (d.partOf w) va .read = .hit pa l) ∧ (linesOf pa n).all (fun l => (w.rd.line l).isSome) = true ∧
    w.rd.bad pa n = none

/-- The lines of the n bytes at pa that the warp's word has still to read. -/
def toRead (w : Warp) (pa n : Nat) : List Nat := (linesOf pa n).filter (fun l => (w.rd.line l).isNone)

/-- What an operation holds beside its requests, and a request beside its departure place and the mark that forbids installing it in L1. -/
def bareOp (d : Dev) (id : Nat) : Option MemOp := (d.ops.get? id).map (fun o => { o with subs := [] })
def bareSub (d : Dev) (id key : Nat) : Option Sub :=
  (d.ops.get? id).bind (fun o => (o.subs.get? key).map (fun u => { u with order := 0, noInstall := false }))

/-- Every operation but `id` is as it was, but for its requests' departure places and installation marks (R305, R306). -/
def OthersKept (s t : State) (id : Nat) : Prop :=
  ∀ j, j ≠ id → bareOp t.dev j = bareOp s.dev j ∧ ∀ q, bareSub t.dev j q = bareSub s.dev j q

/-- From s to t, of the warps only k has changed, to w'; memory, crews, nests, partitions and the boot registers are as before. -/
def OnlyWarp (s t : State) (k : Nat) (w' : Warp) : Prop :=
  t.boot = s.boot ∧ t.turns = s.turns ∧ t.dev.mem = s.dev.mem ∧ t.dev.poison = s.dev.poison ∧ t.dev.crews = s.dev.crews ∧
    t.dev.nests = s.dev.nests ∧ t.dev.parts = s.dev.parts ∧ t.dev.warps = s.dev.warps.set k w'

/-- From s to t, the scalar word of warp k, whose contents are now w, has asked for lines, with one request each and one count on path G where
the read counts (R196), and is tried again in the next clock; the thread stays at it. -/
def AsksRead (s t : State) (k : Nat) (w : Warp) (lines : List Nat) (counts : Bool := true) : Prop :=
  let id := s.dev.nextId
  OnlyWarp s t k { (if counts then w.raiseOut .g id else w) with rd := { w.rd with op := some id }, park := .again, ready := s.dev.clock + 1, rank := 0 } ∧
    t.dev.nextId = id + 1 ∧ OthersKept s t id ∧ ∃ o, t.dev.ops.get? id = some o ∧ o.kind = .fetch false ∧ o.warp = k ∧
      ∀ x, x ∈ lines ↔ ∃ u, o.subs.get? x = some u ∧ u.line = x ∧ u.act = .load

/-- From s to t, warp k has become w' and crew ck c'; memory, nests, partitions and the boot registers are as before. -/
def OnlyWarpCrew (s t : State) (k : Nat) (w' : Warp) (ck : Nat) (c' : Crew) : Prop :=
  t.boot = s.boot ∧ t.turns = s.turns ∧ t.dev.mem = s.dev.mem ∧ t.dev.poison = s.dev.poison ∧ t.dev.nests = s.dev.nests ∧
    t.dev.parts = s.dev.parts ∧ t.dev.warps = s.dev.warps.set k w' ∧ t.dev.crews = s.dev.crews.set ck c'

/-- From s to t, every warp but k is as it was, but for the clock from which its lane stream is a candidate (R360). -/
def OthersRun (s t : State) (k : Nat) : Prop :=
  ∀ j x, j ≠ k → s.dev.warps.get? j = some x → ∃ y, t.dev.warps.get? j = some y ∧ y = { x with lready := y.lready }

/-- The thread of w moves n bytes on. -/
def movedOn (s : State) (w : Warp) (n : Nat) : Warp :=
  { w with spc := w.spc + BitVec.ofNat 64 n, park := .run, xs := [], rd := Reads.empty, ready := s.dev.clock + 1, rank := 0 }

/-! ### Lane words -/

/-- The checks of R50 pass for a word that uses its fields as r says, and none of its registers waits for a result (R246). -/
def LaneLegal (r : LaneRow) (f : LaneWord) (w : Warp) (b : Block) : Prop :=
  laneCheck r f b.valloc true false = none ∧ w.ownAside.pendingV (r.regs f) = false

/-- The warp past the lane word (R213, R47). -/
def pastWord (s : State) (w : Warp) (b : Block) (f : LaneWord) : Warp :=
  let last := decide (b.count ≤ w.lword + 1)
  { w with
    queue := if last then w.queue.drop 1 else w.queue
    lword := if last then 0 else w.lword + 1
    blocks := if last then w.blocks + 1 else w.blocks
    lpark := .run, xl := [], rl := Reads.empty, lready := s.dev.clock + 1 + f.stall.toNat }

/-- LATCHLOST when a source is a latch that is not valid and the word executes in a lane (R43). -/
def latchLost (s : State) (w : Warp) (b : Block) (r : LaneRow) (f : LaneWord) : W64 :=
  if (r.latches f).any (fun i => !(s.dev.pipe w.cluster w.pipe).valid.getLsbD i) && execMask w b f != 0 then fLATCH else 0

/-- Whether lane i of the word writes its destination back (R40, R45). -/
def writesLane (w : Warp) (b : Block) (f : LaneWord) (i : Nat) : Bool := (execMask w b f).getLsbD i && f.nowb == 0#1

/-- The vector registers v are those of w, but in each lane that writes the destination of the word, a pair for a 64-bit type, holds the
image of the lane's value (R35). -/
def WroteV (w : Warp) (b : Block) (f : LaneWord) (ty : Nat) (val : Nat → Nat) (v : Tab LaneReg) : Prop :=
  ∀ r i, i < 64 → (laneGet (v.getD r 0) i).toNat =
    if writesLane w b f i && r == f.dst.toNat then image ty (val i) % 2 ^ 32
    else if writesLane w b f i && tyW ty == 64 && r == f.dst.toNat + 1 then val i / 2 ^ 32 % 2 ^ 32
    else (laneGet (w.v r) i).toNat

/-- The predicates p are those of w, but pq holds val in the lanes that write. -/
def WroteP (w : Warp) (writes : Nat → Bool) (q : Nat) (val : Nat → Bool) (p : Tab Mask) : Prop :=
  ∀ r i, i < 64 → (p.getD r 0).getLsbD i = if writes i && r == q then val i else (w.p r).getLsbD i

/-- A lane of a latch; an invalid latch reads 0 (R43). -/
def laneLatch (d : Dev) (c p i lane : Nat) : Nat :=
  if (d.pipe c p).valid.getLsbD i then ((d.pipe c p).latch.getD i 0).toNat / 2 ^ (64 * lane) % 2 ^ 64 else 0

/-- From s to t, the lane word has executed: the registers are as `regs` says, flags are merged into WSTAT, the issue point moves on; between
switch points the latch of the word holds `latch` in its lanes; nothing else of the warp and nothing of memory, crews, nests and
partitions has changed. -/
def LaneRan (s t : State) (k : Nat) (w : Warp) (b : Block) (f : LaneWord) (regs : Tab LaneReg → Tab Mask → Prop) (flags : W64)
    (latch : Nat → Nat) : Prop :=
  t.boot = s.boot ∧ t.turns = s.turns ∧ t.dev.mem = s.dev.mem ∧ t.dev.poison = s.dev.poison ∧ t.dev.crews = s.dev.crews ∧
    t.dev.nests = s.dev.nests ∧ t.dev.parts = s.dev.parts ∧
  (∃ v p, regs v p ∧
    t.dev.warps = s.dev.warps.set k { pastWord s w b f with vregs := v, preds := p, wstat := w.wstat ||| flags }) ∧
  (w.lword + 1 < b.count → f.yld = 0#1 → ∀ i, i < 64 → (execMask w b f).getLsbD i = true →
    laneLatch t.dev w.cluster w.pipe f.lsel.toNat i = latch i)

/-- The word computes val in every lane at type ty, into a vector register. -/
def LaneValue (s t : State) (k : Nat) (w : Warp) (b : Block) (f : LaneWord) (ty : Nat) (val : Nat → Nat) (flags : W64) : Prop :=
  LaneRan s t k w b f (fun v p => WroteV w b f ty val v ∧ p = w.preds) flags (fun i => image ty (val i) % 2 ^ 64)

/-- The word computes a truth value in every lane, into a predicate. -/
def LaneTruth (s t : State) (k : Nat) (w : Warp) (b : Block) (f : LaneWord) (val : Nat → Bool) (flags : W64) : Prop :=
  LaneRan s t k w b f (fun v p => v = w.vregs ∧ WroteP w (writesLane w b f) (f.dst.toNat - 1544) val p) flags (fun i => if val i then 1 else 0)

/-- The flags of the executing lanes together. -/
def laneFlags (w : Warp) (b : Block) (f : LaneWord) (fl : Nat → W64) : W64 := (lanesOn (execMask w b f)).foldl (fun a i => a ||| fl i) 0

/-- The word answers with a trap of END fate at the lane word. -/
def LaneTrapped (o : Host.Outcome State Fault Refusal) (s : State) (k : Nat) (w : Warp) (b : Block) (cls : Cls) (lmask : Mask) (aux : W64) :
    Prop :=
  ∃ t, o = .next t ∧ TrapTaken s t k w .lane cls (BitVec.ofNat 64 (b.base + 12 * w.lword)) lmask aux [] w.spc

/-- The lane word has had no effect and is tried again in the next clock. -/
def laneWaits (s : State) (k : Nat) (w : Warp) : Host.Outcome State Fault Refusal :=
  let after : Warp := { w with lready := s.dev.clock + 1, lpark := if w.lpark = .run then .again else w.lpark }
  .next { s with dev := { s.dev with warps := s.dev.warps.set k after } }

/-- An integer operation at a type of at least 8 bits, as a pattern (R247). -/
def aluLane (op ty x y : Nat) : Nat := (aluBits op (decide (ty < 4)) (BitVec.ofNat (tyW ty) x) (BitVec.ofNat (tyW ty) y)).toNat

end Sys2Proof.Machine
end

