-- ==== Sys2Proof/Certificates/Slice0/Obligations.lean ====
section
/-!
DEFINITION. The statements about the machine that the provers prove. Each formalises rules of the spec; its docstring says which.
-/
open Sys2Proof Sys2Proof.Machine

/-! ### Scalar computation -/

/-- R217: add, sub, mul, mulhi, min and max write s(d) with the result of their type, whatever the type, and do nothing else.
R217: the bitwise words, the shifts and the counts, at their two legal types. R28: s0 reads zero and discards writes, q0 reads true. -/
def Obligations.ScalarAluWordsWriteResult : Prop :=
  (∀ (s : State) (k : Nat) (w : Warp) (d a b : BitVec 6) (t : BitVec 2), Issuing s k w →
    w.pendingS [d.toNat, a.toNat, b.toNat] = false →
    let out := fun op => ran s k (w.setS d.toNat (aluResult op t (w.s a.toNat) (w.s b.toNat))) 4
    exec (.add d a b t) s = out 0 ∧ exec (.sub d a b t) s = out 1 ∧ exec (.mul d a b t) s = out 2 ∧
      exec (.mulhi d a b t) s = out 3 ∧ exec (.min d a b t) s = out 10 ∧ exec (.max d a b t) s = out 11) ∧
  (∀ (s : State) (k : Nat) (w : Warp) (d a b : BitVec 6) (t : BitVec 2), Issuing s k w →
    w.pendingS [d.toNat, a.toNat, b.toNat] = false → t = 1#2 ∨ t = 3#2 →
    let out := fun op => ran s k (w.setS d.toNat (aluResult op t (w.s a.toNat) (w.s b.toNat))) 4
    exec (.and d a b t) s = out 4 ∧ exec (.or d a b t) s = out 5 ∧ exec (.xor d a b t) s = out 6 ∧
      exec (.shl d a b t) s = out 7 ∧ exec (.shr d a b t) s = out 8 ∧ exec (.sra d a b t) s = out 9 ∧
      (b = 0#6 → exec (.popc d a b t) s = out 12 ∧ exec (.clz d a b t) s = out 13)) ∧
  (∀ (w : Warp) (d : BitVec 6) (v : W64), w.setS 0 v = w ∧ w.s 0 = 0 ∧ w.qp 0 = true ∧ (d ≠ 0#6 → (w.setS d.toNat v).s d.toNat = v) ∧
    ∀ j, j ≠ d.toNat → (w.setS d.toNat v).s j = w.s j)

/-- R218, R219: the compare words write q(d), and writing q0 is discarded.
R218: the SI words compute s(d) from s(a) and the immediate, alone or with a prefix. -/
def Obligations.ComparesAndImmediatesWriteResult : Prop :=
  (∀ (s : State) (k : Nat) (w : Warp) (d a b : BitVec 6) (c : BitVec 3) (t : BitVec 2) (imm : BitVec 14), Issuing s k w →
    w.pendingS [a.toNat, b.toNat] = false → d.toNat < 8 → c.toNat < 6 →
    let x := w.s a.toNat
    let out := fun v => ran s k (w.setQ d.toNat v) 4
    exec (.cmp d a b c 0 t) s = out (cmpResult c.toNat t x (w.s b.toNat)) ∧
      exec (.cmpiEqS64 d a imm) s = out (x == imm.signExtend 64) ∧
      exec (.cmpiLtS64 d a imm) s = out (x.slt (imm.signExtend 64)) ∧
      exec (.cmpiLtN64 d a imm) s = out (x.ult (imm.signExtend 64)) ∧
      (∀ v, (w.setQ 0 v) = w ∧ (w.setQ d.toNat v).qp 0 = true ∧ (d ≠ 0#6 → (w.setQ d.toNat v).qp d.toNat = v))) ∧
  (∀ (s : State) (k : Nat) (w : Warp) (d a : BitVec 6) (imm : BitVec 14) (h : BitVec 26), Issuing s k w →
    w.pendingS [d.toNat, a.toNat] = false →
    let x := w.s a.toNat
    let i := imm.signExtend 64
    let j := (h ++ imm).signExtend 64
    let out := fun n v => ran s k (w.setS d.toNat v) n
    exec (.addiS64 d a imm) s = out 4 (x + i) ∧ exec (.addiS32 d a imm) s = out 4 (((x + i).setWidth 32).signExtend 64) ∧
      exec (.andiB64 d a imm) s = out 4 (x &&& i) ∧ exec (.oriB64 d a imm) s = out 4 (x ||| i) ∧
      exec (.xoriB64 d a imm) s = out 4 (x ^^^ i) ∧ exec (.muliS64 d a imm) s = out 4 (x * i) ∧
      (imm.toNat < 64 → exec (.shlB64Imm d a imm) s = out 4 (x <<< imm.toNat) ∧
        exec (.shrB64Imm d a imm) s = out 4 (x >>> imm.toNat) ∧ exec (.sraB64Imm d a imm) s = out 4 (x.sshiftRight imm.toNat)) ∧
      exec (.pfx h (encSI 4 d a imm)) s = out 8 (x + j) ∧
      exec (.pfx h (encSI 5 d a imm)) s = out 8 (((x + j).setWidth 32).signExtend 64) ∧
      exec (.pfx h (encSI 6 d a imm)) s = out 8 (x &&& j) ∧ exec (.pfx h (encSI 7 d a imm)) s = out 8 (x ||| j) ∧
      exec (.pfx h (encSI 8 d a imm)) s = out 8 (x ^^^ j) ∧ exec (.pfx h (encSI 12 d a imm)) s = out 8 (x * j) ∧
      (d.toNat < 8 → exec (.pfx h (encSI 13 d a imm)) s = ran s k (w.setQ d.toNat (x == j)) 8 ∧
        exec (.pfx h (encSI 14 d a imm)) s = ran s k (w.setQ d.toNat (x.slt j)) 8 ∧
        exec (.pfx h (encSI 15 d a imm)) s = ran s k (w.setQ d.toNat (x.ult j)) 8))

/-- R32, R220, R223: branches, calls, returns and landing words move the thread and write nothing but s63.
R222, R196: jtab asks for the lines of its table's header and then of its entry, reads that count on path G like scalar loads, and waits for
them; once it has read them it checks the index and the landing label, and moves the thread to the target; each failing check is a trap at the
jtab word, with no register changed. R224: poison in what it has read is its data error. -/
def Obligations.ControlWordsMoveTheThread : Prop :=
  (∀ (s : State) (k : Nat) (w : Warp) (p : BitVec 4) (o : BitVec 22) (a l : BitVec 6) (imm : BitVec 14), Issuing s k w → w.stop = none →
    let taken := w.qp (p.extractLsb' 0 3).toNat != p.getLsbD 3
    let target := w.spc + o.signExtend 64 * 4
    (exec (.b p o) s = if taken then ranTo s k w target else ran s k w 4) ∧
      (w.pendingS [63] = false →
        exec (.call p o) s = if taken then ranTo s k (w.setS 63 (w.spc + 4)) target else ran s k w 4) ∧
      (w.pendingS [a.toNat] = false →
        (bits (w.s a.toNat) 1 0 = 0 → exec (.ret 0 a 0) s = ranTo s k w (w.s a.toNat)) ∧
        (bits (w.s a.toNat) 1 0 ≠ 0 → ScalarTrap (exec (.ret 0 a 0) s) s k w 4 .align (w.s a.toNat) [])) ∧
      (l.toNat < 4 → exec (.land 0 l imm) s = ran s k w 4)) ∧
  (∀ (s : State) (k : Nat) (w : Warp) (nest : Nest) (a b : BitVec 6), Issuing s k w → w.stop = none → s.dev.nestOf w = some nest →
    w.pendingS [a.toNat, b.toNat] = false →
    let i := (w.s a.toNat).toNat
    let t := w.s b.toNat
    (t.toNat % 8 ≠ 0 → ScalarTrap (exec (.jtab 0 a b) s) s k w 4 .align t []) ∧
    (∀ tv hp l, t.toNat % 8 = 0 → aform t = .va tv → xlate s.dev w.xs w.cluster (s.dev.partOf w) tv .read = .hit hp l →
      (toRead w hp 8 ≠ [] →
        (w.rd.op = none → mustWait s.dev k w (toRead w hp 8) = false → w.full .g = false →
          Answers (exec (.jtab 0 a b) s) (fun u => AsksRead s u k w (toRead w hp 8))) ∧
        (w.rd.op ≠ none ∨ mustWait s.dev k w (toRead w hp 8) = true ∨ w.full .g = true → exec (.jtab 0 a b) s = waits s k w)) ∧
      (∀ x, toRead w hp 8 = [] → w.rd.bad hp 8 = some x → ScalarTrap (exec (.jtab 0 a b) s) s k w 4 .dataErr (BitVec.ofNat 64 x) [])) ∧
    ∀ tv hp, t.toNat % 8 = 0 → aform t = .va tv → HasRead s.dev w tv 8 hp →
      let h := w.rd.value hp 8
      (h / 2 ^ 16 % 2 ^ 16 ≠ 0 → ScalarTrap (exec (.jtab 0 a b) s) s k w 4 .illOpnd 6 []) ∧
      (h / 2 ^ 16 % 2 ^ 16 = 0 → h / 2 ^ 32 ≤ i → ScalarTrap (exec (.jtab 0 a b) s) s k w 4 .jtBound (w.s a.toNat) []) ∧
      ∀ ev ep, h / 2 ^ 16 % 2 ^ 16 = 0 → i < h / 2 ^ 32 → aform (t + 8 + 4 * w.s a.toNat) = .va ev → HasRead s.dev w ev 4 ep →
        let target := BitVec.ofNat 64 (nest.scb + 4 * w.rd.value ep 4)
        ∀ v pa l, nest.scb ≤ target.toNat → target.toNat < nest.scb + nest.sclen → aform target = .va v →
          xlate s.dev w.xs w.cluster (s.dev.partOf w) v .exec = .hit pa l →
          let word := devReadN s.dev pa 4
          (word / 2 ^ 26 = 29 ∧ word % 2 ^ 16 = h % 2 ^ 16 → exec (.jtab 0 a b) s = ranTo s k w target) ∧
          (¬ (word / 2 ^ 26 = 29 ∧ word % 2 ^ 16 = h % 2 ^ 16) → ScalarTrap (exec (.jtab 0 a b) s) s k w 4 .jtLand target []))

/-- R29, R55, R60: a word whose opcode is unassigned, or a prefix before a word that takes none (at the prefix, field 0: log 30, DEDUCED), or
whose type or reserved field is bad, changes no register and takes the illegal-instruction trap.
R50, R60, R384: a lane word whose opcode, type, modifier, reserved field or operand is bad changes no register and takes the trap of the
first check that fails, as does a word of an unassigned opcode. -/
def Obligations.IllegalWordsTrap : Prop :=
  (∀ (s : State) (k : Nat) (w : Warp) (d a b : BitVec 6) (c r : BitVec 3) (t : BitVec 2) (x : W32) (h : BitVec 26), Issuing s k w → w.stop = none →
    (∀ m, m = 0 ∨ m = 1 → (m = 1 ↔ [0, 1, 2, 3, 34, 35, 36, 37].contains (x.extractLsb' 26 6).toNat = true) →
      ScalarTrap (exec (.unassignedScalarWord x) s) s k w 4 .illInst (BitVec.ofNat 64 m) []) ∧
    (t = 0#2 ∨ t = 2#2 → ScalarTrap (exec (.and d a b t) s) s k w 4 .illInst 2 [] ∧ ScalarTrap (exec (.or d a b t) s) s k w 4 .illInst 2 [] ∧
      ScalarTrap (exec (.xor d a b t) s) s k w 4 .illInst 2 [] ∧ ScalarTrap (exec (.shl d a b t) s) s k w 4 .illInst 2 [] ∧
      ScalarTrap (exec (.shr d a b t) s) s k w 4 .illInst 2 [] ∧ ScalarTrap (exec (.sra d a b t) s) s k w 4 .illInst 2 [] ∧
      ScalarTrap (exec (.popc d a b t) s) s k w 4 .illInst 2 [] ∧ ScalarTrap (exec (.clz d a b t) s) s k w 4 .illInst 2 []) ∧
    (b ≠ 0#6 → t = 1#2 ∨ t = 3#2 → ScalarTrap (exec (.popc d a b t) s) s k w 4 .illInst 3 [] ∧
      ScalarTrap (exec (.clz d a b t) s) s k w 4 .illInst 3 []) ∧
    (c.toNat < 6 → r ≠ 0#3 → ScalarTrap (exec (.cmp d a b c r t) s) s k w 4 .illInst 3 []) ∧
    (c.toNat < 6 → 8 ≤ d.toNat → ScalarTrap (exec (.cmp d a b c 0 t) s) s k w 4 .illOpnd 4 []) ∧
    ([4, 5, 6, 7, 8, 12, 13, 14, 15, 16, 17, 18, 19, 20, 21, 22, 24, 25, 26, 27, 28].contains (x.extractLsb' 26 6).toNat = false →
      ScalarTrap (exec (.pfx h x) s) s k w 4 .illInst 0 [])) ∧
  (∀ (s : State) (k : Nat) (w : Warp) (b : Block) (f : LaneWord) (x : BitVec 96), LaneIssuing s k w b → w.stop = none →
    let ty := f.ty.toNat
    let traps := fun (i : Instr) (cls : Cls) (n : Nat) => LaneTrapped (exec i s) s k w b cls 0 (BitVec.ofNat 64 n)
    let clean := f.hint = 0#3 ∧ f.mdf = 0#3 ∧ f.s2 = 2047#11 ∧ f.s3 = 2047#11
    traps (.unassignedLaneWord x) .illInst 0 ∧
    (10 < ty → traps (.laneAdd f) .illInst 1 ∧ traps (.laneSub f) .illInst 1 ∧ traps (.laneMul f) .illInst 1 ∧ traps (.laneMin f) .illInst 1) ∧
    (7 < ty → traps (.laneMad f) .illInst 1) ∧ (ty ≠ 6 → ty ≠ 7 → traps (.laneAnd f) .illInst 1 ∧ traps (.laneShl f) .illInst 1) ∧
    (tyF ty = false → traps (.fma f) .illInst 1 ∧ traps (.exp2 f) .illInst 1) ∧
    (ty = 15 → traps (.laneLd f) .illInst 1 ∧ traps (.laneSt f) .illInst 1 ∧ traps (.lds f) .illInst 1) ∧
    (ty ≤ 10 → ¬ clean → traps (.laneAdd f) .illInst 2) ∧
    (ty ≤ 10 → clean → f.nowb = 0#1 → 32 * b.valloc ≤ f.dst.toNat → traps (.laneAdd f) .illOpnd 3) ∧
    (tyW ty = 64 → ty < 8 → clean → f.nowb = 0#1 → f.dst.toNat % 2 = 1 → traps (.laneAdd f) .illOpnd 3))

/-! ### Scalar memory words -/

/-- R224, R225, R196: a scalar load at an aligned, mapped address issues one request for its line, whose value is L1's copy when L1 holds
the line, the warp has not asked for a newer one (R305) and no earlier matrix operation of the warp has still to pin it (R324); G rises, s(d)
waits for the return, the thread goes on; memory does not change.
R224, R196: a scalar store at an aligned, mapped address sends the low bytes of s(d), least significant first, to its line; G rises;
a store to peer or host memory also leaves a far-end acknowledgement outstanding; no byte at the pans has changed yet. -/
def Obligations.ScalarMemoryWordsIssue : Prop :=
  (∀ (s : State) (k : Nat) (w : Warp) (i : Instr) (major len va pa : Nat) (d a : BitVec 6) (imm : W64) (l : Leaf), Issuing s k w →
    loadForm i = some (major, d, a, imm, len) → w.pendingS [d.toNat, a.toNat] = false →
    (w.s a.toNat + imm).toNat % accessSize major = 0 → aform (w.s a.toNat + imm) = .va va →
    xlate s.dev w.xs w.cluster (s.dev.partOf w) va .read = .hit pa l → mustWait s.dev k w [pa / 64] = false → w.full .g = false →
    let id := s.dev.nextId
    let w' := { w with outG := w.outG ++ [⟨id, false⟩], pendS := w.pendS ++ [(id, d.toNat)] }
    Answers (exec i s) (fun t => OnlyWarp s t k (movedOn s w' len) ∧ t.dev.nextId = id + 1 ∧
      OthersKept s t id ∧
      ∃ o u, t.dev.ops.get? id = some o ∧ o.kind = .sload major d.toNat ∧ o.warp = k ∧ o.addr = [(0, pa)] ∧
        o.subs = [(pa / 64, u)] ∧ u.line = pa / 64 ∧ u.act = .load ∧
        (l1Find s.dev w.cluster (pa / 64) = none → u.st = .sent) ∧
        (∀ c, l1Find s.dev w.cluster (pa / 64) = some c →
          if newerAsked s.dev k (pa / 64) c.order ∨ pinBefore s.dev k w.cluster (pa / 64) id then u.st = .sent else u.st = .performed ∧ u.data = c.data))) ∧
  (∀ (s : State) (k : Nat) (w : Warp) (i : Instr) (major len va pa : Nat) (d a : BitVec 6) (imm : W64) (l : Leaf), Issuing s k w →
    storeForm i = some (major, d, a, imm, len) → w.pendingS [d.toNat, a.toNat] = false →
    (w.s a.toNat + imm).toNat % accessSize major = 0 → aform (w.s a.toNat + imm) = .va va →
    xlate s.dev w.xs w.cluster (s.dev.partOf w) va .write = .hit pa l → mustWait s.dev k w [pa / 64] = false → w.full .g = false →
    let id := s.dev.nextId
    let w' := { w with outG := w.outG ++ [⟨id, false⟩], acks := w.acks + if isPeer pa || isHost pa then 1 else 0 }
    Answers (exec i s) (fun t => OnlyWarp s t k (movedOn s w' len) ∧ t.dev.nextId = id + 1 ∧ OthersKept s t id ∧
      ∃ o u bs, t.dev.ops.get? id = some o ∧ o.kind = .sstore ∧ o.warp = k ∧ o.subs.map (·.1) = [pa / 64] ∧
        o.subs.get? (pa / 64) = some u ∧ u.line = pa / 64 ∧ u.act = .store bs ∧ bs.length = accessSize major ∧
        ∀ j, j < accessSize major → bs[j]? = some (pa % 64 + j, (w.s d.toNat).extractLsb' (8 * j) 8, 255#8)))

/-- R224, R70, R79, R93: a scalar access that is misaligned, tagged, non-canonical, or not permitted by its page changes no register and
takes the alignment or protection trap, and ends the nest.
R80, R82: a scalar access to an unmapped page changes no register, opens a fault record for the page and parks the thread at the word
until the record is resolved. -/
def Obligations.ScalarAccessesTrapOrPark : Prop :=
  (∀ (s : State) (k : Nat) (w : Warp) (i : Instr) (major len : Nat) (d a : BitVec 6) (imm : W64) (need : Need), Issuing s k w → w.stop = none →
    (loadForm i = some (major, d, a, imm, len) ∧ need = .read) ∨ (storeForm i = some (major, d, a, imm, len) ∧ need = .write) →
    w.pendingS [d.toNat, a.toNat] = false →
    let ea := w.s a.toNat + imm
    (ea.toNat % accessSize major ≠ 0 → ScalarTrap (exec i s) s k w 4 .align ea []) ∧
    (ea.toNat % accessSize major = 0 →
      (∀ p pa, aform ea = .tagged p pa → ScalarTrap (exec i s) s k w 4 .prot 7 []) ∧
      (aform ea = .bad → ScalarTrap (exec i s) s k w 4 .prot 4 []) ∧
      (∀ va c, aform ea = .va va → xlate s.dev w.xs w.cluster (s.dev.partOf w) va need = .fault c → c ≠ .notMapped →
        ScalarTrap (exec i s) s k w 4 .prot (BitVec.ofNat 64 c.num) []))) ∧
  (∀ (s : State) (k : Nat) (w : Warp) (i : Instr) (major len va : Nat) (d a : BitVec 6) (imm : W64) (need : Need), Issuing s k w →
    (loadForm i = some (major, d, a, imm, len) ∧ need = .read) ∨ (storeForm i = some (major, d, a, imm, len) ∧ need = .write) →
    w.pendingS [d.toNat, a.toNat] = false → (w.s a.toNat + imm).toNat % accessSize major = 0 → aform (w.s a.toNat + imm) = .va va →
    xlate s.dev w.xs w.cluster (s.dev.partOf w) va need = .fault .notMapped →
    let p := s.dev.partOf w
    Answers (exec i s) (fun t => t.boot = s.boot ∧
      t.dev.warps.get? k = some { w with park := .records [(s.dev.part p).fseq], xs := [], rd := Reads.empty } ∧
      (t.dev.part p).fseq = (s.dev.part p).fseq + 1 ∧
      ∃ r, (t.dev.part p).open_ = (s.dev.part p).open_ ++ [r] ∧ r.addr = va / 65536 * 65536 ∧ r.code = .notMapped ∧
        r.fseq = (s.dev.part p).fseq ∧ r.kind = (if need = .write then 1 else 0) ∧ r.cluster = w.cluster ∧ r.warp = w.wslot))

/-- R224, R196, R114: the return of a scalar load, once the replies that its pan has sent before to the cluster have come back, writes s(d)
with the bytes at its address, sign- or zero-extended, and lowers G; data from a poisoned sector are written as 0, and the warp then takes
the data-error trap at the load word. The lines that a word waits for come back together, and G falls (log 108). -/
def Obligations.ScalarLoadReturnWritesRegister : Prop :=
  (∀ (s : State) (id major dst key : Nat) (o : MemOp) (u : Sub) (rest : Tab Sub) (w : Warp), s.dev.ops.get? id = some o →
    16 ≤ major → major ≤ 22 → o.kind = .sload major dst → o.subs = (key, u) :: rest → u.st = .performed → replyDue s.dev o u = true →
    s.dev.warps.get? o.warp = some w →
    let pa := o.addr.getD 0 0
    let v := u.data.extractLsb' (8 * (pa % 64)) 64
    let value : W64 := match major with
      | 16 => (v.setWidth 8).signExtend 64
      | 17 => (v.setWidth 8).setWidth 64
      | 18 => (v.setWidth 16).signExtend 64
      | 19 => (v.setWidth 16).setWidth 64
      | 20 => (v.setWidth 32).signExtend 64
      | 21 => (v.setWidth 32).setWidth 64
      | _ => v
    (u.poison.getLsbD (pa % 64 / 16) = false → Answers (exec (.scalarLoadReturn id) s) (fun t =>
      OnlyWarp s t o.warp (((w.setS dst value).release id).returned .g id) ∧ t.dev.ops.get? id = none ∧ OthersKept s t id)) ∧
    (u.poison.getLsbD (pa % 64 / 16) = true → w.stop = none → Answers (exec (.scalarLoadReturn id) s) (fun t =>
      ∃ w', t.dev.warps.get? o.warp = some w' ∧ w'.s dst = 0 ∧ w'.spc = w.spc ∧
        w'.stop.map (fun x => (x.cls, x.stream)) = some (.dataErr, o.stream)))) ∧
  (∀ (s : State) (id : Nat) (o : MemOp) (w : Warp), s.dev.ops.get? id = some o → o.kind = .fetch false → s.dev.warps.get? o.warp = some w →
    ((∃ e ∈ o.subs, e.2.st ≠ .performed ∨ replyDue s.dev o e.2 = false) → exec (.scalarLoadReturn id) s = .next s) ∧
    ((∀ e ∈ o.subs, e.2.st = .performed ∧ replyDue s.dev o e.2 = true) → w.rd.op = some id →
      Answers (exec (.scalarLoadReturn id) s) (fun t => t.dev.ops.get? id = none ∧ OthersKept s t id ∧ OnlyWarp s t o.warp
        { w.returned .g id with rd := ⟨none, w.rd.lines ++ o.subs.map (fun e => (e.2.line, e.2.data, e.2.poison))⟩ })))

/-! ### lx, jtab and the status registers -/

/-- R214, R215: lx enqueues a block of n + 1 lane words at LCB + (s(a) + imm) × 4 with a snapshot of the scalar registers, NMODE, LANES and
VALLOC, and does nothing else; a stall of the word before it still holds (R46); R84: the block keeps the translations of its pages. -/
def Obligations.LxEnqueuesASnapshot : Prop :=
  ∀ (s : State) (k : Nat) (w : Warp) (nest : Nest) (n a : BitVec 6) (imm : BitVec 14) (h : BitVec 26) (va pa pa' : Nat) (l l' : Leaf),
    Issuing s k w → s.dev.nestOf w = some nest → w.pendS = [] → w.queue.length < 16 →
    let last := va + 12 * (n.toNat + 1) - 1
    xlate s.dev w.xs w.cluster (s.dev.partOf w) va .exec = .hit pa l →
    (last / 65536 = va / 65536 ∨ (last < 2 ^ 48 ∧ xlate s.dev w.xs w.cluster (s.dev.partOf w) last .exec = .hit pa' l')) →
    let pages := (va / 65536, XRes.leaf l) :: (if last / 65536 = va / 65536 then [] else [(last / 65536, XRes.leaf l')])
    let block : Block := ⟨va, n.toNat + 1, w.sregs, w.nmode, w.lanes, w.valloc, pages, false⟩
    let w' := { w with queue := w.queue ++ [block], lready := if w.queue = [] then Nat.max w.lready (s.dev.clock + 1) else w.lready }
    (aform (BitVec.ofNat 64 nest.lcb + (w.s a.toNat + imm.signExtend 64) * 4) = .va va → exec (.lx n a imm) s = ran s k w' 4) ∧
    (aform (BitVec.ofNat 64 nest.lcb + (w.s a.toNat + (h ++ imm).signExtend 64) * 4) = .va va →
      exec (.pfx h (encSI 28 n a imm)) s = ran s k w' 8)

/-- R200 to R206: what each status register reads, and that an unassigned number is an illegal operand.
R201 to R203, R205: swr writes WSTAT, NMODE and LANES after checking the value, and no other status register; numbers 48 to 51 are the cache
words' (R117). -/
def Obligations.StatusRegistersAreReadAndWritten : Prop :=
  (∀ (s : State) (k : Nat) (w : Warp) (c : Crew) (nest : Nest) (d n : BitVec 6), Issuing s k w → w.pendingS [d.toNat] = false →
    s.dev.crewOf w = some c → s.dev.nests.get? c.id.nest = some nest →
    let reads := fun (v : W64) => exec (.srd d 0 n) s = ran s k (w.setS d.toNat v) 4
    (n = 0#6 → reads 64) ∧
    (n = 1#6 → w.cluster < 256 → w.pipe < 256 → w.cslot < 256 → c.cidx < 16 → w.wcrew < 16 → w.wslot < 256 →
      reads (BitVec.ofNat 24 c.id.part ++ BitVec.ofNat 8 w.cluster ++ BitVec.ofNat 8 w.pipe ++ BitVec.ofNat 8 w.cslot ++
        BitVec.ofNat 4 c.cidx ++ BitVec.ofNat 4 w.wcrew ++ BitVec.ofNat 8 w.wslot)) ∧ (n = 2#6 → lanesDrained w = true → reads w.wstat) ∧
    (n = 2#6 → lanesDrained w = false → exec (.srd d 0 n) s = waits s k w) ∧ (n = 3#6 → reads w.nmode) ∧
    (n = 4#6 → reads (BitVec.ofNat 64 w.lanes)) ∧ (n = 5#6 → reads (BitVec.ofNat 64 w.valloc)) ∧
    (n = 6#6 → w.outG.length < 4096 → w.outX.length < 4096 → w.outA.length < 4096 → w.outT.length < 4096 →
      reads (BitVec.ofNat 16 w.outT.length ++ BitVec.ofNat 16 w.outA.length ++ BitVec.ofNat 16 w.outX.length ++
        BitVec.ofNat 16 w.outG.length)) ∧
    (n = 7#6 → (s.dev.part c.id.part).enabled = true → reads (BitVec.ofNat 64 (s.dev.clock - (s.dev.part c.id.part).started))) ∧
    (n = 8#6 → reads (BitVec.ofNat 64 nest.lcb)) ∧ (n = 9#6 → reads (BitVec.ofNat 64 nest.scb)) ∧
    (n = 10#6 → reads (BitVec.ofNat 64 nest.param)) ∧
    (n = 11#6 → reads (Config.serial ++ 0x5934#16 ++ Config.stepping ++ (if Config.formM then 2#8 else 1#8))) ∧
    (48 ≤ n.toNat → n.toNat ≤ 51 → reads 0) ∧
    (12 ≤ n.toNat → n.toNat < 48 ∨ 51 < n.toNat → w.stop = none → ScalarTrap (exec (.srd d 0 n) s) s k w 4 .illOpnd 6 [])) ∧
  (∀ (s : State) (k : Nat) (w : Warp) (a n : BitVec 6), Issuing s k w → w.stop = none → w.pendingS [a.toNat] = false →
    let v := w.s a.toNat
    (bits v 63 9 = 0 → lanesDrained w = true → exec (.swr 0 a 2) s = ran s k { w with wstat := v } 4) ∧
    (bits v 63 9 = 0 → lanesDrained w = false → exec (.swr 0 a 2) s = waits s k w) ∧
    (bits v 63 9 ≠ 0 → ScalarTrap (exec (.swr 0 a 2) s) s k w 4 .illOpnd 5 []) ∧
    (bits v 63 21 = 0 → exec (.swr 0 a 3) s = ran s k { w with nmode := v } 4) ∧
    (bits v 63 21 ≠ 0 → ScalarTrap (exec (.swr 0 a 3) s) s k w 4 .illOpnd 5 []) ∧
    (1 ≤ v.toNat → v.toNat ≤ 64 → exec (.swr 0 a 4) s = ran s k { w with lanes := v.toNat } 4) ∧
    (v.toNat = 0 ∨ 64 < v.toNat → ScalarTrap (exec (.swr 0 a 4) s) s k w 4 .illOpnd 5 []) ∧
    (n ≠ 2#6 → n ≠ 3#6 → n ≠ 4#6 → n.toNat < 48 ∨ 51 < n.toNat → ScalarTrap (exec (.swr 0 a n) s) s k w 4 .illOpnd 6 []))

/-! ### Cache control and the system words -/

/-- R117, R118: over a range within one page, cclean sends a write-back for each line of the device's own HBM, cflush drops the lines from L1
and sends a flush for each, cdrop drops them and sends nothing, czero sends a zeroing store for each; an empty range does nothing.
R384 to R389: trap and sysc wait for the lane words that have issued and then stop the warp for the driver's answer with the thread
behind the word; sysc carries s1 to s4; halt stops at once and ends the nest with the thread at the word. -/
def Obligations.CacheAndSystemWordsAct : Prop :=
  (∀ (s : State) (k : Nat) (w : Warp) (a : BitVec 6) (va pb : Nat) (l : Leaf), Issuing s k w → a.toNat < 63 →
    w.pendingS [a.toNat, a.toNat + 1] = false →
    let len := (w.s (a.toNat + 1)).toNat % 2 ^ 32
    let lo := va / 64 * 64
    let hi := (va + len + 63) / 64 * 64
    let page := va / 65536
    let lines := (List.range ((hi - lo) / 64)).map (fun i => (pb + (lo - page * 65536)) / 64 + i)
    let id := s.dev.nextId
    (len = 0 → exec (.cclean a) s = ran s k w 4 ∧ exec (.cflush a) s = ran s k w 4 ∧ exec (.cdrop a) s = ran s k w 4 ∧
      exec (.czero a) s = ran s k w 4) ∧
    (0 < len → aform (w.s a.toNat) = .va va → hi ≤ (page + 1) * 65536 → mustWait s.dev k w lines = false → w.full .g = false →
      (xlate s.dev w.xs w.cluster (s.dev.partOf w) (page * 65536) .read = .hit pb l → (∀ x ∈ lines, isHbm (x * 64) = true) →
        Answers (exec (.cclean a) s) (fun t => OnlyWarp s t k (movedOn s (w.raiseOut .g id) 4) ∧
          ∃ o, t.dev.ops.get? id = some o ∧ o.subs.map (fun e => (e.1, e.2.line, e.2.act)) = lines.map (fun x => (x, x, Act.clean))) ∧
        Answers (exec (.cflush a) s) (fun t => OnlyWarp s t k (movedOn s (w.raiseOut .g id) 4) ∧
          (∃ o, t.dev.ops.get? id = some o ∧ o.subs.map (fun e => (e.1, e.2.line, e.2.act)) = lines.map (fun x => (x, x, Act.flush))) ∧
          ∀ x ∈ lines, (t.dev.cluster w.cluster).l1.get? x = none) ∧
        Answers (exec (.cdrop a) s) (fun t => OnlyWarp s t k (movedOn s ((w.raiseOut .g id).returned .g id) 4) ∧
          t.dev.ops.map (·.1) = s.dev.ops.map (·.1) ∧ ∀ x ∈ lines, (t.dev.cluster w.cluster).l1.get? x = none)) ∧
      (xlate s.dev w.xs w.cluster (s.dev.partOf w) (page * 65536) .write = .hit pb l → (∀ x ∈ lines, isHbm (x * 64) = true) →
        va % 64 = 0 → len % 64 = 0 →
        Answers (exec (.czero a) s) (fun t => OnlyWarp s t k (movedOn s (w.raiseOut .g id) 4) ∧
          ∃ o, t.dev.ops.get? id = some o ∧ o.subs.map (fun e => (e.1, e.2.line, e.2.act)) = lines.map (fun x => (x, x, Act.zero)))))) ∧
  (∀ (s : State) (k : Nat) (w : Warp) (n : BitVec 6), Issuing s k w → w.stop = none →
    (lanesDone w = true → ScalarTrap (exec (.trap 0 0 n) s) s k w 4 .user (n.setWidth 64) []) ∧
    (lanesDone w = false → exec (.trap 0 0 n) s = waits s k w) ∧
    (w.pendingS [1, 2, 3, 4] = false →
      (lanesDone w = true → ScalarTrap (exec (.sysc 0 0 n) s) s k w 4 .sysc (n.setWidth 64) [w.s 1, w.s 2, w.s 3, w.s 4]) ∧
      (lanesDone w = false → exec (.sysc 0 0 n) s = waits s k w)) ∧
    ScalarTrap (exec (.halt 0 0 0) s) s k w 4 .halt 0 [])

/-! ### Gates, waits, fences, the token and granules -/

/-- R367, R317: garrive waits as a release at gang scope and then sends one arrival to its gate; gwait consumes a completed phase and
acquires at gang scope, emptying L1, or parks; gtry writes what it found to q(d), or parks until its hinted time.
R367, R365: a gate word on a gate the crew has not declared is an illegal operand. -/
def Obligations.GateWordsArriveConsumeOrTrap : Prop :=
  (∀ (s : State) (k : Nat) (w : Warp) (c : Crew) (g b q : BitVec 6), Issuing s k w → g.toNat < 16 → q.toNat < 8 →
    s.dev.crewOf w = some c → (c.gate g.toNat).n ≠ 0 → w.pendingS [b.toNat] = false →
    let n := g.toNat
    let took := { w with wph := w.wph.set n (w.wph.getD n 0 + 1) }
    let t := Nat.min (w.s b.toNat).toNat (2 ^ 24)
    (fenceReady s.dev k w true .g = true → Answers (exec (.garrive 0 g 0) s) (fun t =>
      t.dev.warps = s.dev.warps.set k (movedOn s w 4) ∧ t.dev.mem = s.dev.mem ∧ t.boot = s.boot ∧
      t.dev.crews.get? w.crewKey = some { c with arrivals := c.arrivals.set n (c.arrivals.getD n 0 + 1) })) ∧
    (fenceReady s.dev k w true .g = false → exec (.garrive 0 g 0) s = waits s k w) ∧
    (gateReady s.dev w n = true → fenceReady s.dev k w false .g = true →
      Answers (exec (.gwait 0 g 0) s) (fun t => OnlyWarp s t k (movedOn s took 4) ∧ (t.dev.cluster w.cluster).l1 = []) ∧
      Answers (exec (.gtry q g b) s) (fun t => OnlyWarp s t k (movedOn s (took.setQ q.toNat true) 4) ∧ (t.dev.cluster w.cluster).l1 = [])) ∧
    (gateReady s.dev w n = false →
      exec (.gwait 0 g 0) s = .next { s with dev := s.dev.setWarp k { w with park := .gate n none } } ∧
      (t = 0 ∨ c.save ≠ .none → exec (.gtry q g b) s = ran s k (w.setQ q.toNat false) 4) ∧
      (0 < t → c.save = .none →
        exec (.gtry q g b) s = .next { s with dev := s.dev.setWarp k { w with park := .gate n (some (s.dev.clock + t, q.toNat)) } }))) ∧
  (∀ (s : State) (k : Nat) (w : Warp) (c : Crew) (g b q : BitVec 6), Issuing s k w → w.stop = none → g.toNat < 16 → q.toNat < 8 →
    s.dev.crewOf w = some c → (c.gate g.toNat).n = 0 → w.pendingS [b.toNat] = false →
    ScalarTrap (exec (.garrive 0 g 0) s) s k w 4 .illOpnd 5 [] ∧ ScalarTrap (exec (.gwait 0 g 0) s) s k w 4 .illOpnd 5 [] ∧
      ScalarTrap (exec (.gtry q g b) s) s k w 4 .illOpnd 5 [])

/-- R365, R366: the arrivals of a clock at a declared gate are counted together: the count goes on modulo N, a phase completes for every N
arrivals, and a warp parked on the gate whose phase is now complete is runnable from this clock on, ranked by N and the gate's number among
those that fire in it; other gates keep their counts. R367: a parked gtry whose time
has passed writes false and goes on. -/
def Obligations.ArrivalsAreCounted : Prop :=
  (∀ (s : State) (ck g n : Nat) (c : Crew), s.dev.crews.get? ck = some c → c.arrivals = [(g, n)] → (c.gate g).n ≠ 0 → c.warps.Nodup →
    let gate := c.gate g
    Answers (exec (.gateArrival ck) s) (fun t => t.boot = s.boot ∧ t.dev.mem = s.dev.mem ∧
      (∃ c', t.dev.crews.get? ck = some c' ∧ c'.arrivals = [] ∧
        c'.gate g = ⟨gate.n, (gate.cnt + n) % gate.n, gate.gph + BitVec.ofNat 32 ((gate.cnt + n) / gate.n)⟩ ∧
        ∀ h, h ≠ g → c'.gate h = c.gate h) ∧
      ∀ wk w dl, wk ∈ c.warps → s.dev.warps.get? wk = some w → w.park = .gate g dl → w.crewKey = ck →
        w.wph.getD g 0 = gate.gph → 0 < (gate.cnt + n) / gate.n → (gate.cnt + n) / gate.n < 2 ^ 31 →
        t.dev.warps.get? wk = some { w with park := .run, ready := s.dev.clock, rank := firingRank gate.n g })) ∧
  (∀ (s : State) (k g t q : Nat) (w : Warp), s.dev.warps.get? k = some w → w.park = .gate g (some (t, q)) → t ≤ s.dev.clock →
    exec (.gtryTimeout k) s = ran s k (w.setQ q false) 4)

/-- R197, R196: a cwait goes on when the warp's lane blocks have all issued and its counter is at or below the threshold, unsigned, and
otherwise waits, with no effect but time.
R312, R313: each fence waits as its scope asks and then goes on; an acquire or full fence at gang scope or wider also empties the
cluster's L1; no register and no byte of memory changes. -/
def Obligations.CwaitAndFencesWait : Prop :=
  (∀ (s : State) (k : Nat) (w : Warp) (a : BitVec 6), Issuing s k w → w.pendingS [a.toNat] = false →
    let issued := w.queue = [] ∧ w.lpark = .run
    let goes := fun (n : Nat) (o : Host.Outcome State Fault Refusal) =>
      (issued ∧ n ≤ (w.s a.toNat).toNat → o = ran s k w 4) ∧ (¬ (issued ∧ n ≤ (w.s a.toNat).toNat) → o = waits s k w)
    goes w.outG.length (exec (.cwaitG 0 a 0) s) ∧ goes w.outX.length (exec (.cwaitX 0 a 0) s) ∧
      goes w.outA.length (exec (.cwaitA 0 a 0) s) ∧ goes w.outT.length (exec (.cwaitT 0 a 0) s)) ∧
  (∀ (s : State) (k : Nat) (w : Warp) (sc : BitVec 3), Issuing s k w → sc.toNat < 6 →
    (fenceReady s.dev k w true (scopeOf sc.toNat) = true → exec (.fenceRel 0 0 0 sc) s = ran s k w 4) ∧
    (fenceReady s.dev k w true (scopeOf sc.toNat) = false →
      exec (.fenceRel 0 0 0 sc) s = waits s k w ∧ exec (.fenceFull 0 0 0 sc) s = waits s k w) ∧
    (fenceReady s.dev k w false (scopeOf sc.toNat) = false → exec (.fenceAcq 0 0 0 sc) s = waits s k w) ∧
    (sc.toNat < 2 →
      (fenceReady s.dev k w false (scopeOf sc.toNat) = true → exec (.fenceAcq 0 0 0 sc) s = ran s k w 4) ∧
      (fenceReady s.dev k w true (scopeOf sc.toNat) = true → exec (.fenceFull 0 0 0 sc) s = ran s k w 4)) ∧
    (2 ≤ sc.toNat →
      (fenceReady s.dev k w false (scopeOf sc.toNat) = true → Answers (exec (.fenceAcq 0 0 0 sc) s) (fun t =>
        OnlyWarp s t k (movedOn s w 4) ∧ (t.dev.cluster w.cluster).l1 = [])) ∧
      (fenceReady s.dev k w true (scopeOf sc.toNat) = true → Answers (exec (.fenceFull 0 0 0 sc) s) (fun t =>
        OnlyWarp s t k (movedOn s w 4) ∧ (t.dev.cluster w.cluster).l1 = []))))

/-- R302, R303: only the holder passes the token, to a warp of its crew; tok.take waits for it; a warp number outside the crew traps.
R207 to R210: vgrow of nothing succeeds, of more than 48 in all fails, and otherwise enters the pipe's wait list; the oldest request is
granted once its granules are free, and new registers read 0; when every serving warp of the pipe waits and the oldest request cannot be
granted, the youngest is refused; vshrink
returns the highest granules, keeping one at least. -/
def Obligations.TokenAndGranulesMove : Prop :=
  (∀ (s : State) (k : Nat) (w : Warp) (c : Crew) (a : BitVec 6), Issuing s k w → s.dev.crewOf w = some c → w.pendingS [a.toNat] = false →
    let n := (w.s a.toNat).toNat
    (n < c.warps.length → c.token = w.wcrew → Answers (exec (.tokPass 0 a 0) s) (fun t => t.boot = s.boot ∧ t.dev.mem = s.dev.mem ∧
      t.dev.warps = s.dev.warps.set k (movedOn s w 4) ∧ t.dev.crewOf w = some { c with token := n })) ∧
    (n < c.warps.length → c.token ≠ w.wcrew → exec (.tokPass 0 a 0) s = ran s k w 4) ∧
    (c.warps.length ≤ n → w.stop = none → ScalarTrap (exec (.tokPass 0 a 0) s) s k w 4 .illOpnd 5 []) ∧
    (c.token = w.wcrew → exec (.tokTake 0 0 0) s = ran s k w 4) ∧ (c.token ≠ w.wcrew → exec (.tokTake 0 0 0) s = waits s k w)) ∧
  ((∀ (s : State) (k : Nat) (w : Warp) (q a : BitVec 6), Issuing s k w → q.toNat < 8 → w.pendingS [a.toNat] = false →
    let n := (w.s a.toNat).toNat
    let left := Nat.max 1 (w.valloc - n)
    (n = 0 → exec (.vgrow q a 0) s = ran s k (w.setQ q.toNat true) 4) ∧
    (0 < n → 48 < w.valloc + n → exec (.vgrow q a 0) s = ran s k (w.setQ q.toNat false) 4) ∧
    (0 < n → w.valloc + n ≤ 48 → Answers (exec (.vgrow q a 0) s) (fun t =>
      OnlyWarp s t k { w with park := .grow n q.toNat } ∧
      (t.dev.pipe w.cluster w.pipe).grow = (s.dev.pipe w.cluster w.pipe).grow ++ [(k, n)])) ∧
    (lanesDrained w = true →
      exec (.vshrink 0 a 0) s = ran s k { w with valloc := left, vregs := w.vregs.filter (fun e => e.1 < 32 * left) } 4) ∧
    (lanesDrained w = false → exec (.vshrink 0 a 0) s = waits s k w)) ∧
  (∀ (s : State) (c p k n m q : Nat) (rest : List (Nat × Nat)) (w : Warp), (s.dev.pipe c p).grow = (k, n) :: rest →
    s.dev.warps.get? k = some w → w.park = .grow m q → q < 8 → n ≤ freeGranules s.dev c p →
    Answers (exec (.vgrowGrant c p) s) (fun t => (t.dev.pipe c p).grow = rest ∧ t.dev.mem = s.dev.mem ∧
      ∃ w', t.dev.warps = s.dev.warps.set k w' ∧ w'.valloc = w.valloc + n ∧ w'.qp q = true ∧ w'.spc = w.spc + 4 ∧ w'.park = .run ∧
        w'.sregs = w.sregs ∧ (∀ r, r < 32 * w.valloc → w'.v r = w.v r) ∧ (∀ r, 32 * w.valloc ≤ r → w'.v r = 0))) ∧
  (∀ (s : State) (c p k n m q : Nat) (older : List (Nat × Nat)) (w : Warp), (s.dev.pipe c p).grow = older ++ [(k, n)] →
    s.dev.warps.get? k = some w → w.park = .grow m q → q < 8 →
    (∀ e ∈ s.dev.warps, e.2.cluster = c → e.2.pipe = p → holdsPoint s.dev e.2 = true → ∃ a b, e.2.park = .grow a b) →
    (∀ e, (older ++ [(k, n)]).head? = some e → freeGranules s.dev c p < e.2) →
    Answers (exec (.vgrowRefuse c p) s) (fun t => (t.dev.pipe c p).grow = older ∧ t.dev.mem = s.dev.mem ∧
      t.dev.warps = s.dev.warps.set k (movedOn s (w.setQ q false) 4))))

/-! ### Window, group, matrix and nest words -/

/-- R178, R180, R181: win.bind asks for the line of a description, keeps it while the window is filling or held, then checks it and binds or
unbinds the window;
win.state reads the entry; win.free empties a present window.
R153, R155: mcjoin enrols the crew as the member that s(b) names, in a new group or in one with the same four parameters; mcleave takes
it out once no fill that it accepted is under way and, as the last member, once no completion record of the group is still to be performed
(log 89); it does nothing for a crew that is no member. -/
def Obligations.WindowAndGroupWordsAct : Prop :=
  (∀ (s : State) (k : Nat) (w : Warp) (c : Crew) (f a b : BitVec 6), Issuing s k w → s.dev.crewOf w = some c → a.toNat < 16 →
    let n := a.toNat
    let x := c.win n
    let busy := x.valid = true ∧ (x.state = .filling ∨ x.holds ≠ 0)
    let st : BitVec 2 := if x.valid = false ∨ x.state = .absent then 0 else if x.state = .filling then 1 else if x.holds = 0 then 2 else 3
    (∀ desc : Desc, w.pendingS [b.toNat] = false →
      (w.bind = some desc ∨ w.bind = none ∧ (w.s b.toNat).toNat % 64 = 0 ∧ ∃ va pa, aform (w.s b.toNat) = .va va ∧
        HasRead s.dev w va 64 pa ∧ desc = BitVec.ofNat 512 (w.rd.value pa 64)) →
      let others := (c.wins.filter (fun e => e.1 != n && e.2.valid)).map (·.2.desc)
      let bst := bindStatus desc c.ssize others (fun g => (c.gate g).n != 0)
      let entry : Win := if bst = 0 then Win.bound desc else { Win.empty with bst := bst }
      (¬ busy → Answers (exec (.winBind 0 a b) s) (fun t =>
        OnlyWarpCrew s t k (movedOn s { w with bind := none } 4) w.crewKey { c with wins := c.wins.set n entry })) ∧
      (busy → exec (.winBind 0 a b) s = waits s k { w with bind := some desc })) ∧
    (∀ va pa l, w.pendingS [b.toNat] = false → w.bind = none → (w.s b.toNat).toNat % 64 = 0 → aform (w.s b.toNat) = .va va →
      xlate s.dev w.xs w.cluster (s.dev.partOf w) va .read = .hit pa l → w.rd.line (pa / 64) = none → w.rd.op = none →
      mustWait s.dev k w [pa / 64] = false → w.full .g = false → pa % 64 = 0 →
      Answers (exec (.winBind 0 a b) s) (fun t => AsksRead s t k w [pa / 64])) ∧
    (w.pendingS [b.toNat] = false → w.bind = none → (w.s b.toNat).toNat % 64 ≠ 0 → w.stop = none →
      ScalarTrap (exec (.winBind 0 a b) s) s k w 4 .align (w.s b.toNat) []) ∧
    (w.pendingS [f.toNat] = false → exec (.winState f a 0) s = ran s k (w.setS f.toNat
      (BitVec.ofNat 32 x.fills ++ BitVec.ofNat 8 x.holds ++ BitVec.ofNat 8 x.bst ++ 0#11 ++ BitVec.ofBool (x.valid && dGen x.desc) ++
        BitVec.ofBool x.gerr ++ BitVec.ofBool x.valid ++ st)) 4) ∧
    (x.valid = false → exec (.winFree 0 a 0) s = ran s k w 4) ∧ (busy → exec (.winFree 0 a 0) s = waits s k w) ∧
    (x.valid = true → x.state ≠ .filling → x.holds = 0 → Answers (exec (.winFree 0 a 0) s) (fun t =>
      OnlyWarpCrew s t k (movedOn s w 4) w.crewKey { c with wins := c.wins.set n { x with state := .absent } }))) ∧
  (∀ (s : State) (k : Nat) (w : Warp) (c : Crew) (a b : BitVec 6), Issuing s k w → s.dev.crewOf w = some c →
    w.pendingS [a.toNat, b.toNat] = false →
    let va := w.s a.toNat
    let vb := w.s b.toNat
    let gid := bits va 5 0
    let count := bits vb 6 0
    let midx := bits vb 13 8
    let me : Nat × CrewId × Bool × Nat := (w.crewKey, c.id, bit vb 14, bits vb 19 16)
    let joins := fun (g : Group) => Answers (exec (.mcjoin 0 a b) s) (fun t => t.boot = s.boot ∧ t.dev.mem = s.dev.mem ∧
      t.dev.warps = s.dev.warps.set k (movedOn s w 4) ∧
      t.dev.crews = s.dev.crews.set w.crewKey { c with groups := c.groups ++ [(gid, midx)] } ∧
      t.dev.group c.id.part gid = some { g with members := g.members.set midx me })
    let wellFormed := bits va 63 48 = 0 ∧ bit vb 7 = false ∧ bit vb 15 = false ∧ bits vb 31 20 = 0 ∧ 1 ≤ count ∧ count ≤ 64 ∧ midx < count ∧
      (bit vb 14 = true → (c.gate (bits vb 19 16)).n ≠ 0)
    (∀ cpa l, wellFormed → xlate s.dev w.xs w.cluster (s.dev.partOf w) (bits va 47 6 * 64) .write = .hit cpa l →
      (s.dev.group c.id.part gid = none → joins ⟨count, bits vb 47 32, bits vb 63 48, cpa, [], 0, [], []⟩) ∧
      (∀ g, s.dev.group c.id.part gid = some g →
        (g.cpa = cpa → g.count = count → g.timer = bits vb 47 32 → g.linger = bits vb 63 48 → g.members.get? midx = none →
          (∀ m ∈ g.members, m.2.2.1 ≠ c.id) → joins g) ∧
        (g.cpa = cpa → g.count ≠ count → w.stop = none → ScalarTrap (exec (.mcjoin 0 a b) s) s k w 4 .illOpnd 6 []))) ∧
    (count = 0 → bits va 63 48 = 0 → w.stop = none → ScalarTrap (exec (.mcjoin 0 a b) s) s k w 4 .illOpnd 6 []) ∧
    ((∀ e ∈ c.groups, e.1 ≠ gid) → exec (.mcleave 0 a 0) s = ran s k w 4) ∧
    (∀ m, (gid, m) ∈ c.groups → acceptedFill c gid = true ∨ leaveReady s.dev [c] = false → exec (.mcleave 0 a 0) s = waits s k w) ∧
    (∀ m g, (gid, m) ∈ c.groups → acceptedFill c gid = false → leaveReady s.dev [c] = true → s.dev.group c.id.part gid = some g →
      (∃ e ∈ g.members, e.2.2.1 ≠ c.id) → Answers (exec (.mcleave 0 a 0) s) (fun t => t.boot = s.boot ∧ t.dev.mem = s.dev.mem ∧
        OthersRun s t k ∧ (∃ n, t.dev.warps.get? k = some (movedOn s { w with lready := n } 4)) ∧
        t.dev.group c.id.part gid = some { g with members := g.members.filter (fun e => e.2.2.1 != c.id) } ∧
        ∃ c', t.dev.crewOf w = some c' ∧ c'.groups = c.groups.filter (fun e => e.1 != gid))))

/-- R275, R280, R281: a matrix word asks for the line of its format block and, once it has read it and its checks pass, puts one operation at the
end of its cluster's matrix queue and goes on, or waits while
the queue holds 64; an undeclared tile or a misplaced format block traps and queues nothing. -/
def Obligations.MatrixWordsQueueOneOperation : Prop :=
  ∀ (s : State) (k : Nat) (w : Warp) (c : Crew) (f a b : BitVec 6) (n va pa : Nat), Issuing s k w → s.dev.crewOf w = some c →
    n = 1 ∨ n = 2 → f.toNat < 16 → (n = 2 → f.toNat % 2 = 0) → a.toNat < 62 → b.toNat % 2 = 0 →
    w.pendingS [a.toNat, a.toNat + 1, a.toNat + 2, b.toNat] = false →
    let o := exec (if n = 1 then .mma f a b else .mmaN128 f a b) s
    let A := w.s a.toNat
    let B := w.s (a.toNat + 1)
    let F := w.s (a.toNat + 2)
    let rows := w.s b.toNat
    let tiles := if n = 1 then [f.toNat] else [f.toNat, f.toNat + 1]
    let d := s.dev
    ((∃ t ∈ tiles, c.tiles.get? t = none) → w.stop = none → ScalarTrap o s k w 4 .illOpnd 4 []) ∧
    ((∀ t ∈ tiles, c.tiles.get? t ≠ none) →
      (F.toNat % 32 ≠ 0 → w.stop = none → ScalarTrap o s k w 4 .align F []) ∧
      (∀ l, F.toNat % 32 = 0 → aform F = .va va → xlate d w.xs w.cluster (d.partOf w) va .read = .hit pa l → pa % 32 = 0 →
        w.rd.line (pa / 64) = none → w.rd.op = none → mustWait d k w [pa / 64] = false → w.full .g = false →
        Answers o (fun t => AsksRead s t k w [pa / 64])) ∧
      (F.toNat % 32 = 0 → aform F = .va va → HasRead d w va 32 pa →
        let x : BitVec 256 := BitVec.ofNat 256 (w.rd.value pa 32)
        let ranges := mmaRanges n A B rows x
        let lines := mmaLines ranges
        let good := fbOk x = true ∧ mmaMisaligned (opndA A x) (opndB B x) = none ∧
          (∀ r ∈ ranges, r.1 = true → r.2.1 + r.2.2 ≤ c.ssize) ∧ (mmaLines (mmaAll n A B rows x)).length ≤ 4096
        (fbOk x = false → w.stop = none → ScalarTrap o s k w 4 .illOpnd 5 []) ∧
        (good → (d.cluster w.cluster).mq.length < 64 → Answers o (fun t =>
          OnlyWarp s t k (movedOn s { w with openOps := w.openOps ++ [d.nextId] } 4) ∧
          (t.dev.cluster w.cluster).mq = (d.cluster w.cluster).mq ++ [d.nextId] ∧ t.dev.nextId = d.nextId + 1 ∧
          ∃ o, t.dev.mops = d.mops.set d.nextId o ∧ o.warp = k ∧ o.crew = w.crewKey ∧ o.waddr = w.spc.toNat ∧ o.kind = .mma n A B rows x ∧
            o.word = encSR 35 f a b (BitVec.ofNat 8 (n - 1)) ∧ o.tiles = tiles ∧ o.vlines = lines ∧ o.started = false ∧ o.pins = [] ∧ o.holds = [])) ∧
        (good → 64 ≤ (d.cluster w.cluster).mq.length → o = waits s k w)))

/-- R290, R291: mcommit closes the warp's open operations into the batch that follows the last one and writes its number; mwait goes on when
its batch is complete, waits while it is not, and traps on a number not yet assigned.
R293, R295, R299, R301: mdrain without a descriptor queues a drain of 64 registers and holds them pending, or traps when they pass
VALLOC or the register field is no vector register; R286: it waits while an operation of the warp on the tile is suspended; ppoint checks its mask, does nothing while no save is pending, and stops the warp at the word when one is. -/
def Obligations.BatchesDrainsAndPreemptionPoints : Prop :=
  (∀ (s : State) (k : Nat) (w : Warp) (f a : BitVec 6), Issuing s k w →
    let n := (w.lastBatch + 1) % 2 ^ 32
    let m := bits (w.s a.toNat) 31 0
    let ahead := (m + 2 ^ 32 - w.lastBatch) % 2 ^ 32
    let batch : Batch := ⟨n, w.openOps, 0, none⟩
    let closed : Warp := { w with lastBatch := n, openOps := [], batches := w.batches ++ [batch] }
    let empty : Warp := { w with lastBatch := n }
    (w.pendingS [f.toNat] = false →
      (16 ≤ w.batches.length → exec (.mcommit f 0 0) s = waits s k w) ∧
      (w.batches.length < 16 → ∀ i, i ∈ (w.batches.head?.map (·.ops)).getD w.openOps → i ∈ (s.dev.cluster w.cluster).mq →
        exec (.mcommit f 0 0) s = ran s k (closed.setS f.toNat (BitVec.ofNat 64 n)) 4) ∧
      (w.batches = [] → w.openOps = [] → Answers (exec (.mcommit f 0 0) s) (fun t =>
        t.dev.warps.get? k = some (movedOn s (empty.setS f.toNat (BitVec.ofNat 64 n)) 4)))) ∧
    (w.pendingS [a.toNat] = false →
      (1 ≤ ahead → ahead ≤ 2 ^ 31 - 1 → w.stop = none → ScalarTrap (exec (.mwait 0 a 0) s) s k w 4 .illOpnd 5 []) ∧
      (¬ (1 ≤ ahead ∧ ahead ≤ 2 ^ 31 - 1) →
        ((∀ x ∈ w.batches, x.num ≠ m) → exec (.mwait 0 a 0) s = ran s k w 4) ∧
        ((∃ x ∈ w.batches, x.num = m) → exec (.mwait 0 a 0) s = waits s k w)))) ∧
  (∀ (s : State) (k : Nat) (w : Warp) (c : Crew) (f a : BitVec 6) (imm : BitVec 14), Issuing s k w → s.dev.crewOf w = some c →
    w.pendingS [a.toNat] = false →
    let dst := imm.toNat
    let id := s.dev.nextId
    (f.toNat < 16 → 1536 ≤ dst → dst < 2048 → w.stop = none → ScalarTrap (exec (.mdrain f a imm) s) s k w 4 .illOpnd 7 []) ∧
    (f.toNat < 16 → dst < 1536 → w.s a.toNat = 0 →
      (c.tiles.get? f.toNat = none → w.stop = none → ScalarTrap (exec (.mdrain f a imm) s) s k w 4 .illOpnd 4 []) ∧
      (c.tiles.get? f.toNat ≠ none →
        (32 * w.valloc < dst + 64 → w.stop = none → ScalarTrap (exec (.mdrain f a imm) s) s k w 4 .illOpnd 7 []) ∧
        (dst + 64 ≤ 32 * w.valloc → 64 ≤ (s.dev.cluster w.cluster).mq.length ∨ tileSuspended s.dev k w f.toNat = true →
          exec (.mdrain f a imm) s = waits s k w) ∧
        (dst + 64 ≤ 32 * w.valloc → (s.dev.cluster w.cluster).mq.length < 64 → tileSuspended s.dev k w f.toNat = false → Answers (exec (.mdrain f a imm) s) (fun t =>
          (∃ w', OnlyWarp s t k (movedOn s w' 4) ∧ w' = { w with drains := w'.drains } ∧
            ∀ r, dst ≤ r → r < dst + 64 → ({ w' with blocks := w.blocks + w.queue.length } : Warp).pendingV [r] = true) ∧
          (t.dev.cluster w.cluster).mq = (s.dev.cluster w.cluster).mq ++ [id] ∧
          ∃ o, t.dev.mops.get? id = some o ∧ o.tiles = [f.toNat] ∧ o.kind = .drain dst none [] [] w.nmode ∧ o.word = encSI 38 f a imm)))) ∧
    (bits (w.s a.toNat) 63 16 ≠ 0 → w.stop = none → ScalarTrap (exec (.ppoint 0 a 0) s) s k w 4 .illOpnd 5 []) ∧
    (bits (w.s a.toNat) 63 16 = 0 → c.save = .none → exec (.ppoint 0 a 0) s = ran s k w 4) ∧
    (bits (w.s a.toNat) 63 16 = 0 → c.save ≠ .none → w.openOps = [] → w.batches = [] → Answers (exec (.ppoint 0 a 0) s) (fun t =>
      t.boot = s.boot ∧ t.dev.mem = s.dev.mem ∧
      t.dev.warps.get? k = some { w with park := .save, live := w.s a.toNat, xs := [] })))

/-- R331 to R334: nest.launch waits for its release, asks for the four lines of its record, and once it has read them writes the launch status.
A refused launch changes nothing else; a good one puts a nest with the record's copy into a free slot of a rake, as a child of the issuing
point (the lowest free slot of the rake: log 44, DEDUCED), or completes a nest without points
at once. At depth 10 it traps.
R352 to R354: nest.idx writes the index of the point; nest.grow writes its status, and at or above the mark sets HC0 of the
dimension, below it nothing. -/
def Obligations.NestWordsLaunchReadAndGrow : Prop :=
  (∀ (s : State) (k : Nat) (w : Warp) (c : Crew) (nest : Nest) (f a : BitVec 6), Issuing s k w → s.dev.crewOf w = some c →
    s.dev.nests.get? c.id.nest = some nest → w.pendingS [f.toNat, a.toNat] = false →
    let va := w.s a.toNat
    (va.toNat % 256 ≠ 0 → w.stop = none → ScalarTrap (exec (.nestLaunch f a 0) s) s k w 4 .align va []) ∧
    (va.toNat % 256 = 0 → 10 ≤ nest.depth → w.stop = none → ScalarTrap (exec (.nestLaunch f a 0) s) s k w 4 .nestDepth 0 []) ∧
    (va.toNat % 256 = 0 → nest.depth < 10 → fenceReady s.dev k w true .v = false → exec (.nestLaunch f a 0) s = waits s k w) ∧
    (∀ v pa l, va.toNat % 256 = 0 → nest.depth < 10 → fenceReady s.dev k w true .v = true → aform va = .va v →
      xlate s.dev w.xs w.cluster (s.dev.partOf w) v .read = .hit pa l → toRead w pa 256 ≠ [] → w.rd.op = none →
      mustWait s.dev k w (toRead w pa 256) = false → w.full .g = false →
      Answers (exec (.nestLaunch f a 0) s) (fun t => AsksRead s t k w (toRead w pa 256))) ∧
    (∀ v pa l, va.toNat % 256 = 0 → nest.depth < 10 → fenceReady s.dev k w true .v = true → aform va = .va v →
      HasRead s.dev w v 256 pa → xlate s.dev w.xs w.cluster (s.dev.partOf w) v .read = .hit pa l →
      let r : BitVec 2048 := BitVec.ofNat 2048 (w.rd.value pa 256)
      let st := launchStatus s.dev c.id.part (w.cluster / 64) r [] l.w
      let lin := (c.point.map (·.linear)).getD 0
      recField r 56 4 / 2 ^ 18 % 32 = 0 →
      (st ≠ 0 → exec (.nestLaunch f a 0) s = ran s k (w.setS f.toNat (BitVec.ofNat 64 st)) 4) ∧
      let parent : Nest := { nest with points := nest.points.map (fun p =>
        if p.pt.linear = lin then { p with children := p.children + 1, launched := true } else p) }
      let d : Dev := { s.dev with nests := s.dev.nests.set c.id.nest parent }
      (∀ rake slot, st = 0 → rakeFor d (w.cluster / 64) = some rake →
        (List.range 64).find? (fun i => (d.nests.get? (rake * 64 + i)).isNone) = some slot → crewsOf s.dev (rake * 64 + slot) = [] →
        Answers (exec (.nestLaunch f a 0) s) (fun t => t.boot = s.boot ∧ t.dev.crews = s.dev.crews ∧
          t.dev.warps = s.dev.warps.set k (movedOn s (w.setS f.toNat 0) 4) ∧
          (∀ x, x < pa + 192 ∨ pa + 208 ≤ x → memRead t.dev.mem x = memRead s.dev.mem x) ∧
          ((t.dev.nests.get? (rake * 64 + slot) = none ∧ t.dev.mem = memWriteN s.dev.mem (pa + 192) 16 1) ∨
            (t.dev.mem = s.dev.mem ∧ t.dev.nests.get? c.id.nest = some parent ∧
              ∃ n, t.dev.nests.get? (rake * 64 + slot) = some n ∧ n.record = r ∧ n.va = v ∧ n.pa = pa ∧ n.part = c.id.part ∧
                n.depth = nest.depth + 1 ∧ n.parent = some (c.id.nest, lin) ∧ n.ending = false)))))) ∧
  (∀ (s : State) (k : Nat) (w : Warp) (c : Crew) (nest : Nest) (f a b : BitVec 6), Issuing s k w → s.dev.crewOf w = some c →
    s.dev.nests.get? c.id.nest = some nest → w.pendingS [f.toNat, a.toNat] = false →
    let v := (w.s a.toNat).toInt
    let mark := nest.mark b.toNat
    let status := fun (code : Nat) => w.setS f.toNat (BitVec.ofNat 64 (code + 2 ^ 32 * (mark % 2 ^ 32).toNat))
    (b.toNat < nest.dims → exec (.nestIdx f 0 b) s =
      ran s k (w.setS f.toNat (BitVec.ofInt 64 (((c.point.map (·.idx)).getD []).getD b.toNat 0))) 4) ∧
    (nest.dims ≤ b.toNat → b.toNat < 4 → w.stop = none → ScalarTrap (exec (.nestIdx f 0 b) s) s k w 4 .illOpnd 6 []) ∧
    (b.toNat < 4 → v < -2 ^ 31 ∨ 2 ^ 31 - 1 < v → w.stop = none → ScalarTrap (exec (.nestGrow f a b) s) s k w 4 .illOpnd 5 []) ∧
    (b.toNat < nest.dims → -2 ^ 31 ≤ v → v ≤ 2 ^ 31 - 1 →
      (v < mark → exec (.nestGrow f a b) s = ran s k (status 1) 4) ∧
      (mark ≤ v → (∀ e ∈ s.dev.crews, e.2.id.nest = c.id.nest → e.2.point ≠ none) → (∀ p ∈ nest.points, p.retires = false) →
        Answers (exec (.nestGrow f a b) s) (fun t =>
        t.boot = s.boot ∧ t.dev.mem = s.dev.mem ∧ t.dev.crews = s.dev.crews ∧ t.dev.warps = s.dev.warps.set k (movedOn s (status 0) 4) ∧
        ∃ n, t.dev.nests.get? c.id.nest = some n ∧ n.hc = nest.hc.set b.toNat v ∧ n.record = nest.record ∧ n.points = nest.points))))

/-- R26, R318, R348: pdone waits until the warp's work has drained and its writes are performed, and then parks the warp for its crew's next
point; the point goes on while another warp of the crew has not completed it.
R349: when the last warp of a crew completes pdone, the point is finished, the crew is idle, and the rake goes on with the nest. -/
def Obligations.PdoneParksAndFinishesThePoint : Prop :=
  (∀ (s : State) (k j : Nat) (w v : Warp) (c : Crew) (pt : Pt), Issuing s k w → w.openOps = [] → w.batches = [] → w.batchErr = [] →
    s.dev.crewOf w = some c → c.point = some pt → j ∈ c.warps → j ≠ k → s.dev.warps.get? j = some v → v.park ≠ .point →
    let drained := lanesDrained w = true ∧ w.outG = [] ∧ w.outX = [] ∧ w.outA = [] ∧ w.outT = [] ∧ w.acks = 0 ∧
      fenceReady s.dev k w true .v = true
    (drained → Answers (exec (.pdone 0 0 0) s) (fun t => OnlyWarp s t k { w with park := .point, xs := [] })) ∧
    (¬ drained → Answers (exec (.pdone 0 0 0) s) (fun t => OnlyWarp s t k { w with park := .again, ready := s.dev.clock + 1, rank := 0 }))) ∧
  (∀ (s : State) (k : Nat) (w : Warp) (c : Crew) (pt : Pt) (nest : Nest), Issuing s k w → w.openOps = [] → w.batches = [] → w.batchErr = [] →
    lanesDrained w = true → w.outG = [] → w.outX = [] → w.outA = [] → w.outT = [] → w.acks = 0 → fenceReady s.dev k w true .v = true →
    s.dev.crewOf w = some c → c.point = some pt → s.dev.nests.get? c.id.nest = some nest →
    (∀ j v, j ∈ c.warps → j ≠ k → s.dev.warps.get? j = some v → v.park = .point) →
    let done : Nest := { nest with points := nest.points.map (fun p => if p.pt.linear = pt.linear then { p with finished := true, crew := none } else p) }
    let parked : Warp := { w with park := .point, xs := [] }
    let idle : Crew := { c with point := none, save := if c.save = .none then .none else .drain }
    let d : Dev := { s.dev with
      warps := s.dev.warps.set k parked
      crews := s.dev.crews.set w.crewKey idle
      nests := s.dev.nests.set c.id.nest done }
    exec (.pdone 0 0 0) s = .next { s with dev := rakeRun c.id.nest d })

/-! ### Routines, key-value invalidation and collectives -/

/-- R141, R142, R143, R196, R315: satom sends one invocation of the routine in s(a) with the four request words to the line of s(a + 1), drops
the line from L1, raises A, and makes s(d) and s(d + 1) wait; an id above 63 is answered with status BADID and sends nothing.
R128 to R133: rtinst asks for its image word by word; it refuses an id below 32 or above 63 and an image with a bad header, word or clock
count, each with its status, and changes nothing; a good image, or none, is taken in with a number of its own, and the thread waits. The install
begins once no earlier install of the partition is under way: it takes a slot for its code (the lowest free one, log 116; with none free it ends
with status 7) and forms the entry with the next version, whose LEN for a ROM routine is that of the table (log 104). Each unit of the partition
then puts the entry in place, one at a time in an order of the machine's (log 11) and only while no line moves; when all have, the install waits
for the runs that looked up the old entry, frees the slot of the old code and writes the new version to s(d). The clause on the steps is about the
operation by which every passing of time takes an install on. -/
def Obligations.RoutinesAreInvokedAndInstalled : Prop :=
  (∀ (s : State) (k : Nat) (w : Warp) (f a b : BitVec 6) (va pa : Nat) (l : Leaf), Issuing s k w → f.toNat < 63 → a.toNat < 63 → b.toNat < 61 →
    w.pendingS [f.toNat, if f = 0#6 then 0 else f.toNat + 1, a.toNat, a.toNat + 1, b.toNat, b.toNat + 1, b.toNat + 2, b.toNat + 3] = false →
    let at_ := w.s (a.toNat + 1)
    let rid := (w.s a.toNat).toNat
    let id := s.dev.nextId
    let order := ordersOf s.dev w.cluster [rid]
    let w' := { w with
      outA := w.outA ++ [⟨id, false⟩]
      pendS := w.pendS ++ (if f = 0#6 then [] else [(id, f.toNat), (id, f.toNat + 1)])
      acks := w.acks + (if rid ≤ 63 ∧ (isPeer pa || isHost pa) = true then 1 else 0)
      acquires := w.acquires ++ (order.2.toList.map (fun sc => (id, sc, true))) }
    (at_.toNat % 8 ≠ 0 → w.stop = none → ScalarTrap (exec (.satom f a b) s) s k w 4 .align at_ []) ∧
    (at_.toNat % 8 = 0 → aform at_ = .va va → xlate s.dev w.xs w.cluster (s.dev.partOf w) va .write = .hit pa l →
      mustWait s.dev k w [pa / 64] = false → w.full .a = false →
      (satomReady s.dev k w order.1 = false → exec (.satom f a b) s = waits s k w) ∧
      (satomReady s.dev k w order.1 = true → Answers (exec (.satom f a b) s) (fun t =>
        OnlyWarp s t k (movedOn s w' 4) ∧ t.dev.nextId = id + 1 ∧ (t.dev.cluster w.cluster).l1.get? (pa / 64) = none ∧
        ∃ o u, t.dev.ops.get? id = some o ∧ o.kind = .satom f.toNat ∧ o.warp = k ∧ o.subs = [(0, u)] ∧ u.line = pa / 64 ∧
          u.act = .routine rid (pa / 4 % 16) (w.s b.toNat) (w.s (b.toNat + 1)) (w.s (b.toNat + 2)) (w.s (b.toNat + 3)) ∧
          (rid ≤ 63 → u.st = .sent) ∧ (63 < rid → u.st = .performed ∧ u.status = 4))))) ∧
  (∀ (s : State) (k : Nat) (w : Warp) (f a b : BitVec 6), Issuing s k w → w.pendingS [f.toNat, a.toNat, b.toNat] = false →
    let p := s.dev.partOf w
    let rid := (w.s a.toNat).toNat
    let img := w.s b.toNat
    let o := exec (.rtinst f a b) s
    let num := s.dev.nextId
    let with_ := fun (i : Option Install) => ({ w with install := i } : Warp)
    let starts := fun (code : List W32) (entry : W64) => Answers o (fun t => t.dev.nextId = num + 1 ∧ OnlyWarp s t k
      { with_ (some ⟨num, f.toNat, rid, entry, code, false, 0, []⟩) with park := .again, ready := s.dev.clock + 1, rank := 0 })
    (w.install = none →
      (rid < 32 ∨ 63 < rid → o = ran s k (w.setS f.toNat 1) 4) ∧
      (32 ≤ rid → rid ≤ 63 →
        (img = 0 → starts [] 0) ∧
        (img ≠ 0 → img.toNat % 4 ≠ 0 → w.stop = none → ScalarTrap o s k w 4 .align img []) ∧
        (∀ va pa l, img ≠ 0 → img.toNat % 4 = 0 → aform img = .va va → xlate s.dev w.xs w.cluster p va .read = .hit pa l → pa % 4 = 0 →
          w.rd.line (pa / 64) = none → w.rd.op = none → mustWait s.dev k w [pa / 64] = false → w.full .g = false →
          Answers o (fun t => AsksRead s t k w [pa / 64])) ∧
        (∀ va pa words, img ≠ 0 → img.toNat % 4 = 0 → aform img = .va va → HasRead s.dev w va 4 pa →
          let h := w.rd.value pa 4
          let rom := romCode (hdrSlot h)
          let version := mapVersion (mapEntry s.dev p rid)
          let refused := fun (e : Nat × Nat) => o = ran s k (w.setS f.toNat (BitVec.ofNat 64 (e.1 + e.2 * 256 + version * 2 ^ 16))) 4
          words.length = hdrLen h →
          (∀ j x, words[j]? = some x → va + 4 + 4 * j < 2 ^ 48 ∧
            ∃ q, HasRead s.dev w (va + 4 + 4 * j) 4 q ∧ x = BitVec.ofNat 32 (w.rd.value q 4)) →
          (rtHeaderOk h = false → refused (2, 0)) ∧
          (rtHeaderOk h = true →
            (∀ e, rtWordsCheck words 1 = some e → refused e) ∧
            (∀ e, rtWordsCheck words 1 = none → rtClockCheck words 1 4 = some e → refused e) ∧
            (rtWordsCheck words 1 = none → rtClockCheck words 1 4 = none →
              (hdrRom h = true → starts [] (mkMap 0 (hdrSlot h) (rtW64 rom) (hdrScope h) (hdrOrd h) rom.length true)) ∧
              (hdrRom h = false → starts words (mkMap 0 0 (rtW64 words) (hdrScope h) (hdrOrd h) words.length true))))))) ∧
    (∀ i, w.install = some i →
      o = waits s k w ∧
      let t : State := { s with dev := installGoOn s.dev k w p i }
      let ends := fun (st : Nat) => movedOn s ((with_ none).setS i.dst (BitVec.ofNat 64 st)) 4
      (i.begun = false → installBusy s.dev k p i.num = true → t = s) ∧
      (i.begun = false → installBusy s.dev k p i.num = false →
        let old := mapEntry s.dev p i.id
        let entry := i.entry ||| BitVec.ofNat 64 ((mapVersion old + 1) % 2 ^ 16 * 2 ^ 48)
        let under := fun (e : W64) => with_ (some { i with entry := e, begun := true, old := old, todo := mapUnits s.dev p })
        (i.code = [] → OnlyWarp s t k (under entry)) ∧
        (i.code ≠ [] → slotFree s.dev p = none → OnlyWarp s t k (ends (7 + mapVersion old * 2 ^ 16))) ∧
        (∀ sl, i.code ≠ [] → slotFree s.dev p = some sl → t.dev.mem = s.dev.mem ∧
          t.dev.warps = s.dev.warps.set k (under (entry ||| BitVec.ofNat 64 (sl * 2 ^ 40))) ∧
          (t.dev.part p).code = (s.dev.part p).code.set sl i.code ∧ (t.dev.part p).rmap = (s.dev.part p).rmap)) ∧
      (∀ u, i.begun = true → nextUnit s.dev.free i.todo = some u →
        let rest := i.todo.filter (· != u)
        (linesMoving s.dev p = true → t = s) ∧
        (linesMoving s.dev p = false → t.dev.mem = s.dev.mem ∧ t.dev.warps = s.dev.warps.set k (with_ (some { i with todo := rest })) ∧
          (u < 1024 → (t.dev.pan u).rmap = (s.dev.pan u).rmap.set i.id i.entry) ∧
          (1024 ≤ u → (t.dev.cluster (u - 1024)).rmap = (s.dev.cluster (u - 1024)).rmap.set i.id i.entry) ∧
          (t.dev.part p).rmap = if rest = [] then (s.dev.part p).rmap.set i.id i.entry else (s.dev.part p).rmap)) ∧
      (i.begun = true → i.todo = [] →
        (oldRuns s.dev p i.id (mapVersion i.old) = true → t = s) ∧
        (oldRuns s.dev p i.id (mapVersion i.old) = false → t.dev.mem = s.dev.mem ∧
          t.dev.warps = s.dev.warps.set k (ends (mapVersion i.entry * 2 ^ 16)) ∧
          (t.dev.part p).code = if mapV i.old = true ∧ 32 ≤ mapSlot i.old then (s.dev.part p).code.erase (mapSlot i.old)
            else (s.dev.part p).code))))

/-- R94: kvinv raises T and asks every cluster of the partition to invalidate the entries of a sequence and a range of blocks. R417: coll.start
checks its operands, waits while the crew has a collective in progress, and records them; a warp whose record differs from the first warp's traps.
A warp other than the communication warp then goes on (which one that is, it finds without a load, and while the descriptor has no translation
warp 0 stands in for it: log 115); the communication warp waits for the records of the others, asks for the descriptor and the rank table, which
count on no path, checks them, and starts the collective with the holds of its windows taken (R418); it goes on once the sends of the first step
are complete. -/
def Obligations.InvalidationsAndCollectivesStart : Prop :=
  ∀ (s : State) (k : Nat) (w : Warp) (c : Crew) (a b : BitVec 6), Issuing s k w → s.dev.crewOf w = some c → w.pendingS [a.toNat, b.toNat] = false →
    let id := s.dev.nextId
    let v := w.s b.toNat
    let x := w.s a.toNat
    let col := exec (.collStart 0 a b) s
    (w.full .t = false → w.acquires = [] → Answers (exec (.kvinv 0 a b) s) (fun t =>
      OnlyWarp s t k (movedOn s { w with outT := w.outT ++ [⟨id, false⟩] } 4) ∧ t.dev.nextId = id + 1 ∧
      ∃ o, t.dev.ops = s.dev.ops.set id o ∧ o.kind = .kvinv (x.toNat % 2 ^ 32) (bits v 31 0) (bits v 63 32) ∧ o.warp = k ∧
        o.waits = clustersOf s.dev (s.dev.partOf w))) ∧
    (w.full .t = true ∨ w.acquires ≠ [] → exec (.kvinv 0 a b) s = waits s k w) ∧
    (b.toNat < 16 →
      (x.toNat % 64 ≠ 0 → w.stop = none → ScalarTrap col s k w 4 .align x []) ∧
      (x.toNat % 64 = 0 → (c.gate b.toNat).n = 0 → w.stop = none → ScalarTrap col s k w 4 .illOpnd 6 []) ∧
      (x.toNat % 64 = 0 → (c.gate b.toNat).n ≠ 0 →
        let goes := fun (n : Nat) => n ≠ w.wcrew
        let late := ∃ j u, j ∈ c.warps ∧ s.dev.warps.get? j = some u ∧ u.collIn ≠ 0
        let waiting : Warp := { w with collIn := 1, park := .again, ready := s.dev.clock + 1, rank := 0 }
        let first : Crew := { c with collArg := some (x, b.toNat) }
        (c.collArg = none → w.collIn = 1 → (collGoesOn s.dev c w = true → col = ran s k { w with collIn := 0 } 4) ∧
          (collGoesOn s.dev c w = false → col = waits s k w)) ∧
        (c.collArg = none → w.collIn ≠ 1 → inCollective s.dev c = true ∨ late ∨ fenceReady s.dev k w true .c = false → col = waits s k w) ∧
        (c.collArg ≠ none → w.collIn = 2 → col = waits s k w) ∧
        (c.collArg = none → w.collIn = 0 → inCollective s.dev c = false → ¬ late → fenceReady s.dev k w true .c = true →
          (∀ n, commWarp s.dev w x = some n → goes n → Answers col (fun t =>
            OnlyWarpCrew s t k (movedOn s { w with collIn := 2 } 4) w.crewKey first)) ∧
          (commWarp s.dev w x = none → w.wcrew ≠ 0 → Answers col (fun t => OnlyWarpCrew s t k waiting w.crewKey first)) ∧
          (commWarp s.dev w x = some w.wcrew → (∃ j u, j ∈ c.warps ∧ j ≠ k ∧ s.dev.warps.get? j = some u) →
            Answers col (fun t => OnlyWarpCrew s t k waiting w.crewKey first))) ∧
        (∀ r, c.collArg = some r → w.collIn = 0 → fenceReady s.dev k w true .c = true →
          (r.1 ≠ x → w.stop = none → ScalarTrap col s k w 4 .illOpnd 5 []) ∧
          (r.1 = x → r.2 ≠ b.toNat → w.stop = none → ScalarTrap col s k w 4 .illOpnd 6 []) ∧
          (∀ n, r = (x, b.toNat) → commWarp s.dev w x = some n → goes n → col = ran s k { w with collIn := 2 } 4)) ∧
        (∀ va pa l, c.collArg = some (x, b.toNat) → w.collIn = 1 ∨ (w.collIn = 0 ∧ fenceReady s.dev k w true .c = true) →
          commWarp s.dev w x = some w.wcrew → (∀ j u, j ∈ c.warps → j ≠ k → s.dev.warps.get? j = some u → u.collIn ≠ 0) →
          aform x = .va va → xlate s.dev w.xs w.cluster (s.dev.partOf w) va .read = .hit pa l →
          let w1 : Warp := { w with collIn := 1 }
          (toRead w pa 64 ≠ [] → w.rd.op = none → mustWait s.dev k w (toRead w pa 64) = false →
            Answers col (fun t => AsksRead s t k w1 (toRead w pa 64) false)) ∧
          (HasRead s.dev w va 64 pa →
            let desc : Desc := BitVec.ofNat 512 (w.rd.value pa 64)
            w.wcrew = clWarp desc →
            (clDescOk desc c = false → w.stop = none → ScalarTrap col s k w1 4 .illOpnd 5 []) ∧
            ∀ rv rp, clDescOk desc c = true → clSrck desc = 0 → aform (BitVec.ofNat 64 (clRtab desc)) = .va rv →
              rv % 65536 + 16 * clN desc ≤ 65536 → HasRead s.dev w rv (16 * clN desc) rp →
              (clRanksOk desc (w.rd.value rp (16 * clN desc)) = false → w.stop = none → ScalarTrap col s k w1 4 .illOpnd 5 []) ∧
              (clRanksOk desc (w.rd.value rp (16 * clN desc)) = true → (∀ n ∈ collWins desc, (c.win n).state = .present) →
                Answers col (fun t => t.boot = s.boot ∧ t.dev.mem = s.dev.mem ∧ t.dev.warps.get? k = some waiting ∧
                  (∃ c', t.dev.crewOf w = some c' ∧ c'.id = c.id ∧ c'.collArg = none ∧ ∀ n, c'.win n =
                    if n ∈ collWins desc then { c.win n with holds := (c.win n).holds + 1 } else c.win n) ∧
                  ∃ e : Coll, t.dev.colls = s.dev.colls ++ [e] ∧ e.id = c.id ∧ e.desc = desc ∧ e.gate = b.toNat ∧ e.cwarp = w.wcrew ∧
                    e.step = 0 ∧ e.phase = 0 ∧ e.attempt = 0 ∧ e.held = collWins desc ∧ e.ranks.length = clN desc))))))

/-! ### Lane words that compute -/

/-- R40, R53, R245, R247, R248, R252: the integer words and mov write each executing lane with their result at the type, extended into the
register as R35 says, and set no flag but LATCHLOST.
R244, R249, R250: the float words compute each executing lane exactly, round once by the type's control, and merge the flags of the
executing lanes into WSTAT. That SAT has no effect on min, max, abs and neg is the model's reading (log 32). -/
def Obligations.LaneArithmeticWordsCompute : Prop :=
  (∀ (s : State) (k : Nat) (w : Warp) (b : Block) (f : LaneWord), LaneIssuing s k w b →
    let ty := f.ty.toNat
    let x := (lcx s.dev w b).read f.s0.toNat ty
    let y := (lcx s.dev w b).read f.s1.toNat ty
    let z := (lcx s.dev w b).read f.s2.toNat ty
    let bv := fun (v : Nat) => BitVec.ofNat (tyW ty) v
    let run := fun (i : Instr) (r : LaneRow) (val : Nat → Nat) => LaneLegal r f w b → ty < 8 →
      Answers (exec i s) (fun t => LaneValue s t k w b f ty val (latchLost s w b r f))
    let two := fun (op : Nat) (i : Nat) => aluLane op ty (x i) (y i)
    let long := fun (t : Nat) => t == 2 || t == 3 || t == 6 || t == 7
    let signed := fun (t : Nat) => decide (t < 4) || tyF t
    run (.laneAdd f) (row2 tyNum ty) (two 0) ∧ run (.laneSub f) (row2 tyNum ty) (two 1) ∧ run (.laneMul f) (row2 tyNum ty) (two 2) ∧
      run (.laneMulhi f) (row2 long ty) (two 3) ∧ run (.laneMin f) (row2 tyNum ty) (two 10) ∧ run (.laneMax f) (row2 tyNum ty) (two 11) ∧
      run (.laneMad f) (row3 tyInt ty) (fun i => (bv (x i) * bv (y i) + bv (z i)).toNat) ∧
      run (.laneAbs f) (row1 signed ty) (fun i => if (bv (x i)).msb then (- bv (x i)).toNat else x i) ∧
      run (.laneNeg f) (row1 signed ty) (fun i => (- bv (x i)).toNat) ∧
      run (.laneAnd f) (row2 tyBits ty) (two 4) ∧ run (.laneOr f) (row2 tyBits ty) (two 5) ∧ run (.laneXor f) (row2 tyBits ty) (two 6) ∧
      run (.laneNot f) (row1 tyBits ty) (fun i => (~~~ bv (x i)).toNat) ∧ run (.laneShl f) (row2 tyBits ty) (two 7) ∧
      run (.laneShr f) (row2 tyBits ty) (two 8) ∧ run (.laneSra f) (row2 tyBits ty) (two 9) ∧
      run (.lanePopc f) (row1 tyBits ty) (fun i => aluLane 12 ty (x i) 0) ∧ run (.laneClz f) (row1 tyBits ty) (fun i => aluLane 13 ty (x i) 0) ∧
      (LaneLegal (row1 tyMove ty) f w b →
        Answers (exec (.laneMov f) s) (fun t => LaneValue s t k w b f ty x (latchLost s w b (row1 tyMove ty) f)))) ∧
  (∀ (s : State) (k : Nat) (w : Warp) (b : Block) (f : LaneWord), LaneIssuing s k w b → tyF f.ty.toNat = true →
    let ty := f.ty.toNat
    let x := fun (i : Nat) => numT ty ((lcx s.dev w b).read f.s0.toNat ty i)
    let y := fun (i : Nat) => numT ty ((lcx s.dev w b).read f.s1.toNat ty i)
    let z := fun (i : Nat) => numT ty ((lcx s.dev w b).read f.s2.toNat ty i)
    let down := downT b.nmode ty
    let run := fun (i : Instr) (r : LaneRow) (val : Nat → Nat × W64) => LaneLegal r f w b → Answers (exec i s) (fun t =>
      LaneValue s t k w b f ty (fun i => (val i).1) (latchLost s w b r f ||| laneFlags w b f (fun i => (val i).2)))
    let rounds := fun (e : Machine.Num × W64) => ((roundType b.nmode ty e.1).1, e.2 ||| (roundType b.nmode ty e.1).2)
    let exact := fun (e : Machine.Num) => ((roundTo (fmtOf ty) 0 false e).1, (0 : W64))
    run (.laneAdd f) (row2 tyNum ty) (fun i => rounds (addNum down (x i) (y i))) ∧
      run (.laneSub f) (row2 tyNum ty) (fun i => rounds (addNum down (x i) (negNum (y i)))) ∧
      run (.laneMul f) (row2 tyNum ty) (fun i => rounds (mulNum (x i) (y i))) ∧
      run (.fma f) (row3 tyF ty) (fun i => if isNan (z i) then exact .nan else
        rounds ((addNum down (mulNum (x i) (y i)).1 (z i)).1, (mulNum (x i) (y i)).2 ||| (addNum down (mulNum (x i) (y i)).1 (z i)).2)) ∧
      run (.laneMin f) (row2 tyNum ty) (fun i => exact (minNum (x i) (y i))) ∧
      run (.laneMax f) (row2 tyNum ty) (fun i => exact (maxNum (x i) (y i))) ∧
      run (.laneAbs f) (row1 (fun t => decide (t < 4) || tyF t) ty) (fun i => exact (absNum (x i))) ∧
      run (.laneNeg f) (row1 (fun t => decide (t < 4) || tyF t) ty) (fun i => exact (negNum (x i))) ∧
      run (.rndi f) ⟨tyF, fun _ m => m < 4, false, .dst ty, .src ty, .unused, .unused, .unused⟩ (fun i => exact (rndNum f.mdf.toNat (x i))))

/-- R251, R252, R261: cmp and the predicate-logic words write a truth value to their predicate in each executing lane, sel picks one of its
sources by a predicate, and none sets a flag but LATCHLOST. -/
def Obligations.LaneComparisonsAndPredicates : Prop :=
  ∀ (s : State) (k : Nat) (w : Warp) (b : Block) (f : LaneWord), LaneIssuing s k w b →
    let ty := f.ty.toNat
    let x := (lcx s.dev w b).read f.s0.toNat ty
    let y := (lcx s.dev w b).read f.s1.toNat ty
    let truth := fun (i : Instr) (r : LaneRow) (val : Nat → Bool) => LaneLegal r f w b →
      Answers (exec i s) (fun t => LaneTruth s t k w b f val (latchLost s w b r f))
    let p := fun (i : Nat) => (w.p (f.s0.toNat - 1544)).getLsbD i
    let q := fun (i : Nat) => (w.p (f.s1.toNat - 1544)).getLsbD i
    let logic : LaneRow := ⟨fun t => t == 15, mod0, false, .pdst, .psrc, .psrc, .unused, .unused⟩
    let cmp : LaneRow := ⟨tyNum, fun t m => m < 6 || tyF t, false, .pdst, .src ty, .src ty, .unused, .unused⟩
    let sel : LaneRow := ⟨tyMove, mod0, false, .dst ty, .src ty, .src ty, .psrc, .unused⟩
    (ty < 8 → f.mdf.toNat < 6 →
      truth (.laneCmp f) cmp (fun i => cmpBits f.mdf.toNat (decide (ty < 4)) (BitVec.ofNat (tyW ty) (x i)) (BitVec.ofNat (tyW ty) (y i)))) ∧
    (tyF ty = true → truth (.laneCmp f) cmp (fun i => condNum f.mdf.toNat (numT ty (x i)) (numT ty (y i)))) ∧
    (LaneLegal sel f w b → Answers (exec (.laneSel f) s) (fun t => LaneValue s t k w b f ty
      (fun i => if (w.p (f.s2.toNat - 1544)).getLsbD i then x i else y i) (latchLost s w b sel f))) ∧
    truth (.pand f) logic (fun i => p i && q i) ∧ truth (.por f) logic (fun i => p i || q i) ∧ truth (.pxor f) logic (fun i => p i ^^ q i) ∧
    truth (.pandn f) logic (fun i => p i && !q i) ∧
    truth (.pnot f) ⟨fun t => t == 15, mod0, false, .pdst, .psrc, .unused, .unused, .unused⟩ (fun i => !p i)

/-- R253, R256: a special-function word to which the cluster's special-function lanes are granted takes them for a clock, computes each
executing lane at FP32 and rounds once more to a narrower type; a word to which they are not granted is tried again in the next clock.
R257 to R260: cvt converts each executing lane from the source type to the destination type under the destination's control; into an
integer type an in-range value is rounded, and one out of range sets NV and gives the marker, or with SAT the nearest end of the range; whether
it sets NX too when it is inexact stays open, as R236 and R259 differ (log 15). -/
def Obligations.SpecialFunctionsAndConversions : Prop :=
  (∀ (s : State) (k : Nat) (w : Warp) (b : Block) (f : LaneWord), LaneIssuing s k w b → LaneLegal (row1 tyF f.ty.toNat) f w b →
    let ty := f.ty.toNat
    let x := (lcx s.dev w b).read f.s0.toNat ty
    let free := sfuGranted s.dev w.cluster w.pipe k = true
    let runs := fun (fn : Fn) (i : Instr) =>
      let val := fun (j : Nat) =>
        let r := fnEval fn (BitVec.ofNat 32 (exactT 8 (numT ty (x j))))
        if ty = 8 then (r.1.toNat, r.2)
        else ((roundType b.nmode ty (decode32 r.1)).1, r.2 ||| (roundType b.nmode ty (decode32 r.1)).2)
      (free → Answers (exec i s) (fun t => LaneValue s t k w b f ty (fun j => (val j).1)
        (latchLost s w b (row1 tyF ty) f ||| laneFlags w b f (fun j => (val j).2)) ∧ sfuFree t.dev w.cluster = false)) ∧
      (¬ free → (row1 tyF ty).latches f = [] → Answers (exec i s) (fun t => OnlyWarp s t k { w with lready := s.dev.clock + 1 }))
    runs .exp2 (.exp2 f) ∧ runs .log2 (.log2 f) ∧ runs .rcp (.rcp f) ∧ runs .rsqrt (.rsqrt f) ∧ runs .sqrt (.sqrt f) ∧ runs .sin (.sin f) ∧
      runs .cos (.cos f) ∧ runs .tanh (.tanh f) ∧ runs .sigmoid (.sigmoid f) ∧ runs .gelu (.gelu f)) ∧
  ((∀ (s : State) (k : Nat) (w : Warp) (b : Block) (f : LaneWord), LaneIssuing s k w b →
    let ty := f.ty.toNat
    let src := f.s3.toNat % 16
    let r : LaneRow := ⟨fun t => t ≤ 14, mod0, false, .dst ty, .src src, .unused, .unused, .unused⟩
    let val := fun (i : Nat) => cvtSource src ((lcx s.dev w b).read f.s0.toNat src i)
    let out := fun (i : Nat) => cvtFrom b.nmode src ty (val i).1
    laneCheck r f b.valloc (decide (f.s3.toNat < 16) && cvtPair ty src) true = none → w.ownAside.pendingV (r.regs f) = false →
    Answers (exec (.cvt f) s) (fun t => LaneValue s t k w b f ty (fun i => (out i).1)
      (latchLost s w b r f ||| laneFlags w b f (fun i => (val i).2 ||| (out i).2)))) ∧
  (∀ (nmode : W64) (src t : Nat) (neg : Bool) (m : Nat) (e : Int), t < 8 →
    let n := (roundInt (control nmode t).1 neg m e).1
    let y : Int := if neg then -(n : Int) else n
    let lo : Int := if t < 4 then -2 ^ (tyW t - 1) else 0
    let hi : Int := if t < 4 then 2 ^ (tyW t - 1) - 1 else 2 ^ tyW t - 1
    let sat := (control nmode t).2
    let code := fun (v : Int) => (v % 2 ^ tyW t).toNat
    (lo ≤ y → y ≤ hi → (cvtFrom nmode src t (.fin neg m e)).1 = code y) ∧
    let flags := fun (v : Nat × W64) => v.2 = fNV ∨ ((roundInt (control nmode t).1 neg m e).2 = true ∧ v.2 = fNV ||| fNX)
    (y < lo → (cvtFrom nmode src t (.fin neg m e)).1 = (if sat then code lo else 2 ^ (tyW t - 1)) ∧ flags (cvtFrom nmode src t (.fin neg m e))) ∧
    (hi < y → (cvtFrom nmode src t (.fin neg m e)).1 = (if sat then code hi else 2 ^ (tyW t - 1)) ∧ flags (cvtFrom nmode src t (.fin neg m e))) ∧
    cvtFrom nmode src t .nan = (if sat then 0 else 2 ^ (tyW t - 1), fNV) ∧
    cvtFrom nmode src t (.inf neg) = (if sat then code (if neg then lo else hi) else 2 ^ (tyW t - 1), fNV)))

/-- R262 to R265: shfl delivers another lane's source within the sub-group and writes whether it was in range, vote combines a predicate over
the lanes below LANES, lred reduces each sub-group; a lane at or above LANES reads as 0. -/
def Obligations.CrossLaneWordsCombineLanes : Prop :=
  ∀ (s : State) (k : Nat) (w : Warp) (b : Block) (f : LaneWord), LaneIssuing s k w b → b.lanes ≤ 64 →
    let ty := f.ty.toNat
    let c := lcx s.dev w b
    let on := lanesOn (execMask w b f)
    let source := fun (j : Nat) => if j < b.lanes then c.read f.s0.toNat ty j else 0
    let shfl : LaneRow := ⟨tyMove, fun _ m => m < 5, false, .dst ty, .src ty, .src 6, .src 6, .pdst⟩
    let lred : LaneRow := ⟨tyNum, fun t m => m < 3 || (m < 6 && tyBits t), false, .dst ty, .src ty, .src 6, .unused, .unused⟩
    let vote : LaneRow := ⟨fun t => t == 15, fun _ m => m < 3, false, if f.mdf.toNat < 2 then .pdst else .dst 7, .psrc, .unused, .unused, .unused⟩
    (LaneLegal shfl f w b →
      let wd := subWidth c f.s2.toNat on
      let place : Nat → Int := fun i =>
        let n := c.read f.s1.toNat 6 i
        let r := i % wd
        match f.mdf.toNat with
        | 0 => (n : Int)
        | 1 => (r : Int) - n
        | 2 => (r : Int) + n
        | 3 => ((r ^^^ n : Nat) : Int)
        | _ => (((r + n) % wd : Nat) : Int)
      let inside := fun (i : Nat) => decide (0 ≤ place i ∧ place i < wd)
      let from_ := fun (i : Nat) => i - i % wd + (place i).toNat
      let val := fun (i : Nat) => if inside i then source (from_ i) else c.read f.s0.toNat ty i
      Answers (exec (.shfl f) s) (fun t => LaneRan s t k w b f (fun v p => WroteV w b f ty val v ∧
        WroteP w (fun i => (execMask w b f).getLsbD i) (f.s3.toNat - 1544) (fun i => inside i && decide (from_ i < b.lanes)) p)
        (latchLost s w b shfl f) (fun i => image ty (val i) % 2 ^ 64))) ∧
    (LaneLegal vote f w b →
      let live := fun (i : Nat) => decide (i < b.lanes) && (w.p (f.s0.toNat - 1544)).getLsbD i
      (f.mdf = 0#3 → Answers (exec (.vote f) s) (fun t =>
        LaneTruth s t k w b f (fun _ => (List.range 64).any live) (latchLost s w b vote f))) ∧
      (f.mdf = 1#3 → Answers (exec (.vote f) s) (fun t =>
        LaneTruth s t k w b f (fun _ => (List.range b.lanes).all live) (latchLost s w b vote f))) ∧
      (f.mdf = 2#3 → Answers (exec (.vote f) s) (fun t => LaneValue s t k w b f 7
        (fun _ => ((w.p (f.s0.toNat - 1544)) &&& laneCountMask b.lanes).toNat) (latchLost s w b vote f)))) ∧
    (LaneLegal lred f w b → ty < 8 →
      let wd := subWidth c f.s1.toNat on
      let op : Nat → Nat → Nat := fun x y => aluLane ([0, 10, 11, 4, 5, 6].getD f.mdf.toNat 0) ty x y
      let group := fun (i : Nat) => (List.range wd).map (fun j => source (i - i % wd + j))
      Answers (exec (.lred f) s) (fun t => LaneValue s t k w b f ty
        (fun i => (group i).tail.foldl op ((group i).headD 0)) (latchLost s w b lred f)))

/-! ### Lane words that access memory -/

/-- R266 to R269, R272, R315: ld and st whose executing lanes are aligned and mapped send one request for each line, with the lanes that it
serves and, for st, their bytes in lane order; pf does so for the lanes that it can fetch and drops the others. G rises once; ld's
destination and latch wait; memory does not change. -/
def Obligations.LaneLoadsAndStoresIssue : Prop :=
  ∀ (s : State) (k : Nat) (w : Warp) (b : Block) (f : LaneWord) (pa : Nat → Nat) (hit : Nat → Bool), LaneIssuing s k w b → w.lpark = .run ∨ w.lpark = .again →
    (∀ l, mustWait s.dev k w l = false) → w.full .g = false →
    let ty := f.ty.toNat
    let on := lanesOn (execMask w b f)
    let x := lcx s.dev w b
    let a := fun (i : Nat) => BitVec.ofNat 64 (x.read f.s0.toNat 7 i)
    let data := x.read f.s1.toNat ty
    let elem := fun (i : Nat) => if tyW ty = 4 then 2 * pa i + (a i).toNat % 2 else pa i
    let found := fun (need : Need) (t i : Nat) => ∃ va l, aform (elemByte t (a i)) = .va va ∧
      xlate s.dev w.xl w.cluster (s.dev.partOf w) va need = .hit (pa i) l
    let id := s.dev.nextId
    let ld : LaneRow := ⟨tyMem, mod0, true, .dst ty, .src 7, .unused, .unused, .unused⟩
    let st : LaneRow := ⟨tyMem, mod0, true, .unused, .src 7, .src ty, .unused, .unused⟩
    let pf : LaneRow := ⟨fun t => t == 15, mod0, true, .unused, .src 7, .unused, .unused, .unused⟩
    let far := fun (i : Nat) => isPeer (i * 64) || isHost (i * 64)
    let next := fun (r : LaneRow) (regs : List Nat) (acks : Nat) => ({ pastWord s w b f with
      outG := w.outG ++ [⟨id, false⟩], pendV := w.pendV ++ regs.map (fun r => (id, r)), acks := w.acks + acks,
      wstat := w.wstat ||| latchLost s w b r f } : Warp)
    let served := fun (o : MemOp) (i : Nat) (act : Act) => ∃ e ∈ o.subs, e.2.line = pa i / 64 ∧ e.2.act = act ∧ e.2.lanes.getLsbD i = true
    (LaneLegal ld f w b → on ≠ [] → (∀ i ∈ on, (a i).toNat % elemSize ty = 0 ∧ found .read ty i) →
      Answers (exec (.laneLd f) s) (fun t =>
        OnlyWarp s t k (next ld ((if f.nowb = 1#1 then [] else if tyW ty = 64 then [f.dst.toNat, f.dst.toNat + 1] else [f.dst.toNat]) ++
          [1536 + f.lsel.toNat]) 0) ∧
        ∃ o, t.dev.ops.get? id = some o ∧ o.kind = .load ty f.dst.toNat f.lsel.toNat (f.nowb == 1#1) ∧ o.warp = k ∧
          (o.subs.map (·.2.line)).Nodup ∧ ∀ i ∈ on, o.addr.get? i = some (elem i) ∧ served o i .load)) ∧
    (LaneLegal st f w b → on ≠ [] → (∀ i ∈ on, (a i).toNat % elemSize ty = 0 ∧ found .write ty i) →
      Answers (exec (.laneSt f) s) (fun t =>
        OnlyWarp s t k (next st [] ((distinct (on.map (fun i => pa i / 64))).filter far).length) ∧
        ∃ o, t.dev.ops.get? id = some o ∧ o.kind = .store ∧ o.warp = k ∧ (o.subs.map (·.2.line)).Nodup ∧
          ∀ i ∈ on, served o i (.store ((on.filter (fun j => pa j / 64 == pa i / 64)).flatMap (fun j => elemBytes ty (elem j) (data j)))))) ∧
    (LaneLegal pf f w b → (∃ i ∈ on, hit i = true) →
      (∀ i ∈ on, (hit i = true → found .read 0 i) ∧ (hit i = false → aform (a i) = .bad ∨
        ∃ va c, aform (a i) = .va va ∧ xlate s.dev w.xl w.cluster (s.dev.partOf w) va .read = .fault c)) →
      Answers (exec (.pf f) s) (fun t => OnlyWarp s t k (next pf [] 0) ∧
        ∃ o, t.dev.ops.get? id = some o ∧ o.kind = .pf ∧ ∀ i ∈ on, hit i = true → served o i .load))

/-- R81, R267: before any lane accesses memory, ld and st trap on misaligned lanes, then on non-canonical addresses, naming the failing lanes;
lanes whose page is not mapped park the lane stream with a fault record for a replay, and the word stays at its place. -/
def Obligations.LaneAccessesTrapOrPark : Prop :=
  ∀ (s : State) (k : Nat) (w : Warp) (b : Block) (f : LaneWord) (i : Instr) (need : Need) (row : LaneRow), LaneIssuing s k w b →
    w.lpark = .run ∨ w.lpark = .again → LaneLegal row f w b → row.latches f = [] →
    (i = .laneLd f ∧ need = .read ∧ row = ⟨tyMem, mod0, true, .dst f.ty.toNat, .src 7, .unused, .unused, .unused⟩) ∨
      (i = .laneSt f ∧ need = .write ∧ row = ⟨tyMem, mod0, true, .unused, .src 7, .src f.ty.toNat, .unused, .unused⟩) →
    let ty := f.ty.toNat
    let on := lanesOn (execMask w b f)
    let a := fun (j : Nat) => BitVec.ofNat 64 ((lcx s.dev w b).read f.s0.toNat 7 j)
    let mis := fun (j : Nat) => (a j).toNat % elemSize ty != 0
    let bad := fun (j : Nat) => aform (elemByte ty (a j)) == .bad
    let p := s.dev.partOf w
    (∀ j, on.find? mis = some j → w.stop = none → LaneTrapped (exec i s) s k w b .align (maskOf (on.filter mis)) (a j)) ∧
    ((∀ j ∈ on, mis j = false) → (∀ j ∈ on, bad j = false → ∃ va, aform (elemByte ty (a j)) = .va va) → (∃ j ∈ on, bad j = true) →
      w.stop = none → LaneTrapped (exec i s) s k w b .prot (maskOf (on.filter bad)) 4) ∧
    (∀ page, on ≠ [] → (∀ j ∈ on, mis j = false ∧ ∃ va, aform (elemByte ty (a j)) = .va va ∧ va / 65536 = page ∧
        xlate s.dev w.xl w.cluster p va need = .fault .notMapped) → (∀ l, mustWait s.dev k w l = false) → w.full .g = false →
      Answers (exec i s) (fun t => t.boot = s.boot ∧
        (∃ w', t.dev.warps.get? k = some w' ∧ w'.lpark = .replay (execMask w b f) s.dev.nextId [(s.dev.part p).fseq] ∧ w'.lword = w.lword ∧
          w'.queue = w.queue ∧ w'.vregs = w.vregs ∧ w'.outG = w.outG ++ [⟨s.dev.nextId, false⟩]) ∧
        ∃ r, (t.dev.part p).open_ = (s.dev.part p).open_ ++ [r] ∧ r.addr = page * 65536 ∧ r.code = .notMapped ∧
          r.kind = (if need = .write then 1 else 0) ∧ r.fseq = (s.dev.part p).fseq))

/-- R135 to R143: atom with aligned, mapped lanes whose routines' release has completed sends each executing lane's invocation to its line
with its own id and request words, drops the lines from L1 and raises A; routines with no ordering never wait. R90 to R92: kvx whose lanes find
their entries, cached or to be read, or a position out of range, sends one request for each entry that is not cached and raises T; while a
header is neither cached nor read, kvx asks for its line and waits at its place.
Their destinations wait, and memory does not change. -/
def Obligations.AtomicsAndKvWordsIssue : Prop :=
  ∀ (s : State) (k : Nat) (w : Warp) (b : Block) (f : LaneWord) (pa : Nat → Nat), LaneIssuing s k w b → w.lpark = .run ∨ w.lpark = .again →
    (∀ l, mustWait s.dev k w l = false) →
    let ty := f.ty.toNat
    let on := lanesOn (execMask w b f)
    let x := lcx s.dev w b
    let n := s.dev.nextId
    let atom := atomRow ty f.mdf.toNat
    let kvx : LaneRow := ⟨fun t => t == 7, mod0, true, .dst 7, .src 7, .src 7, .src 7, .pdst⟩
    (LaneLegal atom f w b → on ≠ [] → w.full .a = false →
      let va := fun (i : Nat) => BitVec.ofNat 64 (x.read f.s1.toNat 7 i)
      let id := fun (i : Nat) => x.read f.s0.toNat 6 i
      let order := ordersOf s.dev w.cluster (on.map id)
      (∀ i ∈ on, (va i).toNat % elemSize ty = 0 ∧ id i ≤ 63 ∧ ∃ v l, aform (va i) = .va v ∧
        xlate s.dev w.xl w.cluster (s.dev.partOf w) v .write = .hit (pa i) l) →
      (order.1 = none → releaseReady s.dev k w order.1 = true) ∧ (releaseReady s.dev k w order.1 = true →
      Answers (exec (.atom f) s) (fun t => t.boot = s.boot ∧ t.dev.mem = s.dev.mem ∧ t.dev.crews = s.dev.crews ∧
        (∃ w', t.dev.warps = s.dev.warps.set k w' ∧ w'.outA = w.outA ++ [⟨n, false⟩] ∧ w'.vregs = w.vregs ∧ w'.sregs = w.sregs ∧
          w'.lword = (pastWord s w b f).lword ∧ (f.nowb = 0#1 → w'.pendingV [f.dst.toNat] = true)) ∧
        (∀ i ∈ on, (t.dev.cluster w.cluster).l1.get? (pa i / 64) = none) ∧
        ∃ o, t.dev.ops.get? n = some o ∧ o.warp = k ∧ ∀ i ∈ on, ∃ u, o.subs.get? i = some u ∧ u.line = pa i / 64 ∧ u.st = .sent ∧
          (f.mdf.getLsbD 0 = false → u.act = .routine (id i) (pa i / 4 % 16) (BitVec.ofNat 64 (x.read f.s2.toNat ty i))
            (BitVec.ofNat 64 (x.read f.s3.toNat ty i)) 0 0) ∧
          (f.mdf.getLsbD 0 = true → u.act = .routine (id i) (pa i / 4 % 16) (BitVec.ofNat 64 (x.read f.s2.toNat 7 i))
            (BitVec.ofNat 64 (x.read (f.s2.toNat + 2) 7 i)) (BitVec.ofNat 64 (x.read (f.s2.toNat + 4) 7 i))
            (BitVec.ofNat 64 (x.read (f.s2.toNat + 6) 7 i)))))) ∧
    (LaneLegal kvx f w b → on ≠ [] → w.full .t = false →
      let h := fun (i : Nat) => BitVec.ofNat 64 (x.read f.s2.toNat 7 i)
      let seq := fun (i : Nat) => x.read f.s0.toNat 7 i % 2 ^ 32
      let pos := fun (i : Nat) => x.read f.s1.toNat 7 i % 2 ^ 32
      let finds := fun (i : Nat) (x : KvLane) => ∃ va, aform (h i) = .va va ∧ va % 32 = 0 ∧ kvLane s.dev w va (seq i) (pos i) = x
      ((∀ i ∈ on, ∃ va, finds i (.header va (pa i))) → w.rl.op = none → Answers (exec (.kvx f) s) (fun t =>
        t.boot = s.boot ∧ t.dev.mem = s.dev.mem ∧ t.dev.crews = s.dev.crews ∧
        (∃ w', t.dev.warps.get? k = some w' ∧ w'.rl.op = some n ∧ w'.lword = w.lword ∧ w'.queue = w.queue ∧ w'.outT = w.outT) ∧
        ∃ o, t.dev.ops.get? n = some o ∧ o.kind = .fetch true ∧ o.warp = k ∧
          ∀ i ∈ on, ∃ u, o.subs.get? (pa i / 64) = some u ∧ u.line = pa i / 64 ∧ u.act = .load)) ∧
      ((∀ i ∈ on, finds i .range ∨ ∃ va blk off at_ v hdr, finds i (.entry va (seq i) blk off at_ v hdr)) →
      Answers (exec (.kvx f) s) (fun t => t.boot = s.boot ∧ t.dev.mem = s.dev.mem ∧ t.dev.crews = s.dev.crews ∧
        (∃ w', t.dev.warps = s.dev.warps.set k w' ∧ w'.outT = w.outT ++ [⟨n, false⟩] ∧ w'.vregs = w.vregs ∧ w'.preds = w.preds ∧
          w'.lword = (pastWord s w b f).lword ∧ w'.pendingV [f.s3.toNat] = true) ∧
        ∃ o, t.dev.ops.get? n = some o ∧ o.warp = k ∧
          o.kind = .kvx f.dst.toNat f.lsel.toNat (f.s3.toNat - 1544) (f.nowb == 1#1) ∧
          ∀ i ∈ on, (∀ va blk off at_ v hdr, finds i (.entry va (seq i) blk off at_ v hdr) →
            ∃ r u, o.remotes.get? i = some r ∧ o.subs.get? r.crew = some u ∧ u.act = .load ∧ u.reply = BitVec.ofNat 64 (seq i) ∧
              (at_ = some (pa i) → u.line = pa i / 64) ∧ (at_ = none → u.st = .back)) ∧
            (finds i .range → (i, 0) ∈ o.failed))))

/-- R184 to R187, R390: over windows that are filled, lds reads each executing lane's element of its crew's scratch, sts writes it, lanes in
order, and ld.tap touches its windows and waits for none: an absent window starts to fill by a copy job. -/
def Obligations.ScratchWordsAccessTheCrew : Prop :=
  ∀ (s : State) (k : Nat) (w : Warp) (b : Block) (f : LaneWord) (c : Crew), LaneIssuing s k w b → s.dev.crewOf w = some c → w.acquires = [] →
    let ty := f.ty.toNat
    let on := lanesOn (execMask w b f)
    let x := lcx s.dev w b
    let e := x.read f.s0.toNat 6
    let off := fun (i : Nat) => if tyW ty = 4 then e i / 2 else e i
    let cl := s.dev.cluster w.cluster
    let lds : LaneRow := ⟨tyMem, mod0, true, .dst ty, .src 6, .unused, .unused, .unused⟩
    let sts : LaneRow := ⟨tyMem, mod0, true, .unused, .src 6, .src ty, .unused, .unused⟩
    let tap : LaneRow := ⟨fun t => t == 15, mod0, true, .unused, .src 6, .unused, .unused, .unused⟩
    let inside := ∀ i ∈ on, off i % elemSize ty = 0 ∧ off i + elemSize ty ≤ c.ssize
    let filled := ∀ i ∈ on, ∀ n, c.windowAt (off i) = some n → (c.win n).state = .present
    (LaneLegal lds f w b → inside → filled → (∀ i ∈ on, (c.sbase + off i) / 16 ∉ cl.spoison) →
      Answers (exec (.lds f) s) (fun t => LaneValue s t k w b f ty (fun i =>
        if tyW ty = 4 then (memRead cl.scratch (c.sbase + off i)).toNat / (if e i % 2 = 0 then 1 else 16) % 16
        else memReadN cl.scratch (c.sbase + off i) (elemSize ty)) (latchLost s w b lds f))) ∧
    (LaneLegal lds f w b → w.stop = none → lds.latches f = [] → (∀ i ∈ on, off i % elemSize ty = 0) →
      (∃ i ∈ on, c.ssize < off i + elemSize ty) →
      LaneTrapped (exec (.lds f) s) s k w b .prot (maskOf (on.filter (fun i => decide (c.ssize < off i + elemSize ty)))) 6) ∧
    (LaneLegal sts f w b → inside → filled → (∀ i ∈ on, ∀ n, c.windowAt (off i) = some n → (c.win n).holds = 0) →
      Answers (exec (.sts f) s) (fun t => OnlyWarp s t k { pastWord s w b f with wstat := w.wstat ||| latchLost s w b sts f } ∧
        (t.dev.cluster w.cluster).scratch =
          on.foldl (fun m i =>
            let v := x.read f.s1.toNat ty i
            let old := (memRead m (c.sbase + off i)).toNat
            memWriteN m (c.sbase + off i) (elemSize ty) (if tyW ty ≠ 4 then v
              else if e i % 2 = 0 then old / 16 * 16 + v % 16 else old % 16 + 16 * (v % 16))) cl.scratch)) ∧
    (LaneLegal tap f w b → (∀ i ∈ on, e i + 1 ≤ c.ssize) → (∀ i ∈ on, ∀ n, c.windowAt (e i) = some n → (c.win n).state ≠ .absent ∧
        (c.win n).asking ≠ 1) →
      Answers (exec (.ldTap f) s) (fun t => OnlyWarp s t k { pastWord s w b f with wstat := w.wstat ||| latchLost s w b tap f })) ∧
    (∀ n, LaneLegal tap f w b → on ≠ [] → (∀ i ∈ on, e i + 1 ≤ c.ssize ∧ c.windowAt (e i) = some n) → (c.win n).state = .absent →
      (c.win n).gerr = false → dGen (c.win n).desc = false →
      let filling : Win := { c.win n with
        state := .filling, toucher := k, twaddr := b.base + 12 * w.lword, tblock := b.base, got := 0, filler := .copy, tid := s.dev.nextId }
      Answers (exec (.ldTap f) s) (fun t =>
        OnlyWarpCrew s t k { pastWord s w b f with wstat := w.wstat ||| latchLost s w b tap f } w.crewKey
          { c with wins := c.wins.set n filling } ∧
        (t.dev.engine (engineOf c.cluster)).jobs = (s.dev.engine (engineOf c.cluster)).jobs ++ [⟨w.crewKey, n, false, [], 0, none⟩]))

/-- R194, R196: ldr and str with aligned offsets inside the scratch of a crew of the gang send one request for each executing lane and raise X;
an offset or a crew outside traps. R243: nop only moves on.
R194, R195, R390: a lane's remote request is performed at the crew that it names: ldr takes the bytes, str stores them, unless a window of
theirs is filling or held; the return writes the lane and, with the last lane, lowers X. -/
def Obligations.RemoteScratchIssuesAndIsPerformed : Prop :=
  (∀ (s : State) (k : Nat) (w : Warp) (b : Block) (f : LaneWord) (c : Crew) (nest : Nest), LaneIssuing s k w b → s.dev.crewOf w = some c →
    s.dev.nests.get? c.id.nest = some nest → w.lpark = .run ∨ w.lpark = .again →
    let ty := f.ty.toNat
    let on := lanesOn (execMask w b f)
    let x := lcx s.dev w b
    let crew := x.read f.s0.toNat 6
    let off := x.read f.s1.toNat 6
    let n := s.dev.nextId
    let ldr : LaneRow := ⟨tyMove, mod0, true, .dst ty, .src 6, .src 6, .unused, .unused⟩
    let str : LaneRow := ⟨tyMove, mod0, true, .unused, .src 6, .src 6, .src ty, .unused⟩
    let nop : LaneRow := ⟨fun t => t == 15, mod0, false, .unused, .unused, .unused, .unused, .unused⟩
    let good := (∀ l, mustWait s.dev k w l = false) ∧ w.full .x = false ∧ on ≠ [] ∧
      ∀ i ∈ on, off i % elemSize ty = 0 ∧ crew i < nest.gangSize ∧ off i + elemSize ty ≤ c.ssize
    let next := fun (r : LaneRow) (regs : List Nat) => ({ pastWord s w b f with
      outX := w.outX ++ [⟨n, false⟩], pendV := w.pendV ++ regs.map (fun r => (n, r)), wstat := w.wstat ||| latchLost s w b r f } : Warp)
    (LaneLegal ldr f w b → good → Answers (exec (.ldr f) s) (fun t =>
      OnlyWarp s t k (next ldr ((if f.nowb = 1#1 then [] else if tyW ty = 64 then [f.dst.toNat, f.dst.toNat + 1] else [f.dst.toNat]) ++
        [1536 + f.lsel.toNat])) ∧
      ∃ o, t.dev.ops.get? n = some o ∧ o.kind = .ldr ty f.dst.toNat f.lsel.toNat (f.nowb == 1#1) ∧ o.warp = k ∧ ∀ i ∈ on, ∃ r,
        o.remotes.get? i = some r ∧ r.crew = crew i ∧ r.off = off i ∧ r.size = elemSize ty ∧ r.done = false)) ∧
    (LaneLegal str f w b → good → Answers (exec (.str f) s) (fun t => OnlyWarp s t k (next str []) ∧
      ∃ o, t.dev.ops.get? n = some o ∧ o.kind = .str ∧ o.warp = k ∧ ∀ i ∈ on, ∃ r, o.remotes.get? i = some r ∧ r.crew = crew i ∧
        r.off = off i ∧ r.size = elemSize ty ∧ r.data = BitVec.ofNat 64 (x.read f.s2.toNat ty i) ∧ r.done = false)) ∧
    (LaneLegal ldr f w b → w.stop = none → ldr.latches f = [] → (∀ i ∈ on, off i % elemSize ty = 0) → (∃ i ∈ on, nest.gangSize ≤ crew i) →
      LaneTrapped (exec (.ldr f) s) s k w b .prot
        (maskOf (on.filter (fun i => decide (nest.gangSize ≤ crew i) || decide (c.ssize < off i + elemSize ty)))) 6) ∧
    (LaneLegal nop f w b → Answers (exec (.laneNop f) s) (fun t => OnlyWarp s t k (pastWord s w b f)))) ∧
  (∀ (s : State) (id lane : Nat) (o : MemOp) (r : Remote) (w : Warp) (own c : Crew), s.dev.ops.get? id = some o →
    o.remotes.get? lane = some r → s.dev.warps.get? o.warp = some w → s.dev.crewOf w = some own →
    let done := fun (r' : Remote) => ({ o with remotes := o.remotes.set lane r' } : MemOp)
    (r.done = false → remoteBefore s.dev o.warp id lane r.crew = false → gangCrew s.dev own r.crew = some (c, false) →
      (∀ t dst l n, o.kind = .ldr t dst l n → Answers (exec (.remoteScratchAccess id lane) s) (fun t' => t'.dev.mem = s.dev.mem ∧
        t'.dev.warps = s.dev.warps ∧ ∃ r', t'.dev.ops = s.dev.ops.set id (done r') ∧ r'.done = true ∧
          r'.data = BitVec.ofNat 64 (memReadN (s.dev.cluster c.cluster).scratch (c.sbase + r.off) r.size))) ∧
      (o.kind = .str → remoteHeld c r.off = true → exec (.remoteScratchAccess id lane) s = .next s) ∧
      (o.kind = .str → remoteHeld c r.off = false → Answers (exec (.remoteScratchAccess id lane) s) (fun t' => t'.dev.mem = s.dev.mem ∧
        t'.dev.warps = s.dev.warps ∧ t'.dev.ops = s.dev.ops.set id (done { r with done := true }) ∧
        (t'.dev.cluster c.cluster).scratch = memWriteN (s.dev.cluster c.cluster).scratch (c.sbase + r.off) r.size r.data.toNat))) ∧
    (r.done = true → r.back = false → r.poison = false → o.remotes = [(lane, r)] → o.subs = [] → o.left = 0 → o.waits = [] → o.bad = [] →
      o.path = .x → (∀ e ∈ w.acquires, e.1 ≠ id) →
      (o.kind = .str → Answers (exec (.remoteScratchReturn id lane) s) (fun t' => t'.dev.mem = s.dev.mem ∧
        t'.dev.warps = s.dev.warps.set o.warp ((w.release id).returned .x id))) ∧
      (∀ t dst l, o.kind = .ldr t dst l false → t ≤ 12 → tyW t ≠ 64 → lane < 64 →
        Answers (exec (.remoteScratchReturn id lane) s) (fun t' => t'.dev.mem = s.dev.mem ∧ ∃ v,
          t'.dev.warps = s.dev.warps.set o.warp ((({ w with vregs := v } : Warp).release id).returned .x id) ∧
          laneGet (v.getD dst 0) lane = BitVec.ofNat 32 (image t r.data.toNat) ∧
          ∀ q i, i < 64 → q ≠ dst ∨ i ≠ lane → laneGet (v.getD q 0) i = laneGet (w.v q) i))))

/-! ### Returns -/

/-- R269 to R271, R196: when the last line of an ld returns, its lanes' elements are in the destination, the registers become readable and G
falls; a lane that read a poisoned sector holds 0, and the warp takes the data-error trap. A returned pf only lowers G.
R269, R307, R315: a performed write is acknowledged and lowers its counter; one to host or peer memory keeps the warp's outstanding
acknowledgement until its far end answers, and the host's answer lowers it. R114: a reply is taken once those that its pan sent the cluster
before it are. -/
def Obligations.LaneRepliesAreTaken : Prop :=
  (∀ (s : State) (id key : Nat) (o : MemOp) (u : Sub) (w : Warp), s.dev.ops.get? id = some o → o.subs = [(key, u)] → u.st = .performed →
    o.left = 0 → o.remotes = [] → o.waits = [] → o.bad = [] → s.dev.warps.get? o.warp = some w → (∀ e ∈ w.acquires, e.1 ≠ id) →
    replyDue s.dev o u = true →
    let lanes := lanesOn u.lanes
    let el := fun (i : Nat) => o.addr.getD i 0
    let poisoned := fun (t i : Nat) => u.poison.getLsbD (elemSector t (el i))
    (∀ t dst l, o.kind = .load t dst l false → t ≤ 14 → o.path = .g → (∀ i ∈ lanes, poisoned t i = false) →
      Answers (exec (.laneLoadReturn id key) s) (fun t' => t'.boot = s.boot ∧ t'.dev.mem = s.dev.mem ∧ t'.dev.crews = s.dev.crews ∧
        t'.dev.ops.get? id = none ∧ OthersKept s t' id ∧
        ∃ v, t'.dev.warps = s.dev.warps.set o.warp ((({ w with vregs := v } : Warp).release id).returned .g id) ∧
          ∀ r i, i < 64 → (laneGet (v.getD r 0) i).toNat =
            if u.lanes.getLsbD i && r == dst then image t (elemOf t (el i) u.data) % 2 ^ 32
            else if u.lanes.getLsbD i && tyW t == 64 && r == dst + 1 then elemOf t (el i) u.data / 2 ^ 32 % 2 ^ 32
            else (laneGet (w.v r) i).toNat)) ∧
    (∀ t dst l, o.kind = .load t dst l false → t ≤ 14 → o.path = .g → w.stop = none → (∃ i ∈ lanes, poisoned t i = true) →
      Answers (exec (.laneLoadReturn id key) s) (fun t' => ∃ w', t'.dev.warps.get? o.warp = some w' ∧
        w'.stop.map (fun x => (x.cls, x.stream)) = some (.dataErr, o.stream) ∧
        ∀ i ∈ lanes, poisoned t i = true → (laneGet (w'.v dst) i).toNat = 0)) ∧
    (o.kind = .pf → o.path = .g → Answers (exec (.laneLoadReturn id key) s) (fun t' => t'.dev.mem = s.dev.mem ∧
      t'.dev.warps = s.dev.warps.set o.warp ((w.release id).returned .g id) ∧ t'.dev.ops.get? id = none))) ∧
  (∀ (s : State) (id key : Nat) (o : MemOp) (u : Sub) (w : Warp), s.dev.ops.get? id = some o → o.subs = [(key, u)] →
    o.kind = .store ∨ o.kind = .sstore ∨ o.kind = .cache → o.left = 0 → o.remotes = [] → o.waits = [] → o.bad = [] →
    s.dev.warps.get? o.warp = some w → (∀ e ∈ w.acquires, e.1 ≠ id) →
    let far := (isPeer (u.line * 64) || isHost (u.line * 64)) && u.status == 0
    let answered : Warp := if u.status = 2 then { w with acks := w.acks - 1 } else w
    ((far = true → u.act = .zero ∨ (∃ bs, u.act = .store bs)) → replyDue s.dev o u = true → u.st = .performed →
      Answers (exec (.storeAck id key) s) (fun t => t.boot = s.boot ∧ t.dev.mem = s.dev.mem ∧
      t.dev.warps = s.dev.warps.set o.warp ((answered.release id).returned o.path id) ∧
      (far = false → t.dev.ops.get? id = none) ∧
      (far = true → ∃ o' n, t.dev.ops.get? id = some o' ∧ o'.subs = [(key, { u with st := .far, order := n })]))) ∧
    (u.act = .zero ∨ (∃ bs, u.act = .store bs) → u.st = .far → isHost (u.line * 64) = true → Answers (exec (.farEndAck id key) s) (fun t => t.boot = s.boot ∧ t.dev.mem = s.dev.mem ∧
      t.dev.warps = s.dev.warps.set o.warp { w with acks := w.acks - 1 } ∧ t.dev.ops.get? id = none)))

/-! ### The pans -/

/-- R100 to R104, R144: the request at the head of a bank queue of its home pan, which nothing blocks and whose sectors are there, is
performed: a load takes the line's bytes and poison, a store and a zero write memory, an invocation of a routine in the map takes its run;
with sectors missing it starts their fill and waits in the conflict queue. R460: no other place of the queue is taken. R68: a fill brings
the sectors, poisoned where the HBM copy is in error, and the waiting request is then performed; a load with hint 4 (R48) meets the same
errors in an absent line. The model's choices: which sectors fail, and that an error found stays until a whole write (log 98).
R125, R144, R145: a run commits as a whole: on a line without poison it runs the code on the line's bytes, word, and arguments; a run
that ends well writes the words that it has stored and replies, a failing one changes no memory and answers its status, as does one on a
poisoned line; the run leaves its bank. R141, R143: the reply of satom writes s(d) and s(d + 1) and lowers A. -/
def Obligations.PansPerformRequestsAndRoutines : Prop :=
  (∀ (s : State) (p b id key : Nat) (rest : List (Nat × Nat)) (o : MemOp) (u : Sub),
    s.dev.ops.get? id = some o → o.subs.get? key = some u → isHbm (u.line * 64) = true → (∀ n m, o.kind ≠ .peer n m) → o.kind ≠ .agent →
    (∀ m v, o.kind ≠ .pin m v) →
    let x := s.dev.pan p
    let home := panOf s.dev o.part u.line
    let after := fun (t : State) (f : Sub → Sub) => ∃ o' n, t.dev.ops.get? id = some o' ∧
      o'.subs.get? key = some { f u with st := .performed, at_ := s.dev.clock, order := n, pan := p }
    let found := if (x.line u.line).isNone then readSectors s.dev u.line (sectorsNeeded u.act) else s.dev
    let loaded := fun (v : Sub) => { v with data := lineAt s.dev u.line, poison := linePoison found u.line }
    (∀ pos, pos ≠ 0 → exec (.tagPipelineTake p b pos) s = .next s) ∧
    (p = home → x.banks.getD b [] = (id, key) :: rest → x.conflict = [] → (∀ f ∈ x.fwd, f.1 ≠ u.line) → blocked x s.dev.clock b u = false →
      (missing x u = 0 →
        (u.act = .load → Answers (exec (.tagPipelineTake p b 0) s) (fun t => t.boot = s.boot ∧ t.dev.mem = s.dev.mem ∧ after t loaded)) ∧
        (∀ bs, u.act = .store bs → Answers (exec (.tagPipelineTake p b 0) s) (fun t => t.boot = s.boot ∧
          t.dev.mem = (storeLine s.dev u.line bs).mem ∧ after t (fun v => v))) ∧
        (u.act = .zero → Answers (exec (.tagPipelineTake p b 0) s) (fun t => t.boot = s.boot ∧
          t.dev.mem = memWriteN s.dev.mem (u.line * 64) 64 0 ∧ after t (fun v => v))) ∧
        (∀ rid word a0 a1 a2 a3, u.act = .routine rid word a0 a1 a2 a3 →
          let e := panEntry s.dev p rid
          let ok := mapV e = true ∧ (slotCode s.dev o.part (mapSlot e)).isEmpty = false
          (ok → (mapW64 e = false ∨ word % 2 = 0) → Answers (exec (.routineInvocation p b) s) (fun t => t.boot = s.boot ∧
            t.dev.mem = s.dev.mem ∧ (t.dev.pan p).runs.get? b = some ⟨id, key, u.line, mapSlot e, mapVersion e⟩)) ∧
          (¬ ok → Answers (exec (.routineInvocation p b) s) (fun t => t.dev.mem = s.dev.mem ∧ after t (fun v => { v with status := 3 }))) ∧
          (ok → mapW64 e = true → word % 2 = 1 → Answers (exec (.routineInvocation p b) s) (fun t =>
            t.dev.mem = s.dev.mem ∧ after t (fun v => { v with status := 9 }))))) ∧
      (missing x u ≠ 0 → allocate s.dev p u.line u.hint ≠ none → Answers (exec (.tagPipelineTake p b 0) s) (fun t =>
        t.dev.mem = s.dev.mem ∧ (t.dev.pan p).conflict = [(id, key)] ∧
        ∃ e, (t.dev.pan p).line u.line = some e ∧ e.filling = true ∧ e.want = missing x u))) ∧
    (x.conflict = (id, key) :: rest → blocked x s.dev.clock (bankOf (u.line * 64)) u = false → missing x u = 0 → u.act = .load →
      p = home ∨ x.line u.line ≠ none →
      Answers (exec (.conflictQueueRelease p 0) s) (fun t => t.boot = s.boot ∧ t.dev.mem = s.dev.mem ∧
        (t.dev.pan p).conflict = rest ∧ after t loaded)) ∧
    (∀ l e, x.line l = some e → e.filling = true → Answers (exec (.hbmFillComplete p l) s) (fun t => t.boot = s.boot ∧
      t.dev.mem = s.dev.mem ∧ (∀ n ∈ s.dev.hbmErr, n ∈ t.dev.hbmErr) ∧
      (t.dev.pan p).line l = some { e with valid := e.valid ||| e.want, filling := false, want := 0 } ∧
      ∀ i, i < 4 → e.want.getLsbD i = true → hbmError s.dev (l * 4 + i) = true →
        t.dev.poison.contains (l * 4 + i) = true ∧ t.dev.hbmErr.contains (l * 4 + i) = true))) ∧
  (∀ (s : State) (p b : Nat) (r : Run) (o : MemOp) (u : Sub), s.dev.ops.get? r.op = some o → o.subs.get? r.key = some u →
    (∀ n m, o.kind ≠ .peer n m) → o.kind ≠ .agent →
    (∀ rid word a0 a1 a2 a3, u.act = .routine rid word a0 a1 a2 a3 → (s.dev.pan p).runs.get? b = some r →
      let run := rtRun (slotCode s.dev o.part r.slot) (rtStart (lineAt s.dev r.line) word [a0, a1, a2, a3])
      let ends := fun (m : Mem) (f : Sub → Sub) => Answers (exec (.routineCommit p b) s) (fun t => t.boot = s.boot ∧ t.dev.mem = m ∧
        (t.dev.pan p).runs.get? b = none ∧
        ∃ o', t.dev.ops.get? r.op = some o' ∧ o'.subs.get? r.key = some { f u with
          st := .performed, at_ := s.dev.clock, order := s.dev.replies, pan := p })
      (linePoison s.dev r.line ≠ 0 → ends s.dev.mem (fun v => { v with status := 2 })) ∧
      (linePoison s.dev r.line = 0 →
        (∀ c, run.fail = some c → ends s.dev.mem (fun v => { v with status := 1 + 256 * c })) ∧
        (run.fail = none → ends (if run.written.isEmpty then s.dev.mem
          else memWriteN s.dev.mem (r.line * 64) 64 (rtLine (lineAt s.dev r.line) word run).toNat) (fun v => { v with reply := run.reply })))) ∧
    (∀ dst w, o.kind = .satom dst → o.subs = [(r.key, u)] → u.st = .performed → s.dev.warps.get? o.warp = some w → o.path = .a →
      o.left = 0 → o.remotes = [] → o.waits = [] → o.bad = [] → (∀ e ∈ w.acquires, e.1 ≠ r.op) → replyDue s.dev o u = true →
      Answers (exec (.routineReply r.op r.key) s) (fun t => t.boot = s.boot ∧ t.dev.mem = s.dev.mem ∧
        ∃ w', t.dev.warps.get? o.warp = some w' ∧ w'.spc = w.spc ∧
          w'.outA = (w.returned .a r.op).outA ∧ (dst = 0 → w'.sregs = w.sregs) ∧
          (dst ≠ 0 → w'.s dst = u.reply ∧ w'.s (dst + 1) = BitVec.ofNat 64 u.status) ∧
          w'.pendingS [dst, dst + 1] = (w.release r.op).pendingS [dst, dst + 1])))

/-- R107, R108: a moving line is copied with its sectors' state to its target; the acknowledgement removes it from the source, which then
forwards its requests, or at a recall drops the home's entry; an entry whose holder has evicted the line goes, the flushes that evicted
it end, and a move that waited for an entry starts. R110, R111: PCARVE refuses a target above 8 or a new one while BUSY, and otherwise takes it; a draining way writes back the lines
that nothing holds and, when it is empty, becomes shadow; ways above a lower target return one at a time, the highest first, and CURRENT
falls with each. R306: an L1 copy 2,048 clocks old leaves. The model's choices: a moved line starts with run count 0 and its last cluster
(log 97), and WAY_DRAIN_COMPLETE also gives back the ways above a lower target (log 38). -/
def Obligations.LinesMoveAndWaysAreCarved : Prop :=
  ∀ (s : State) (p l : Nat), let x := s.dev.pan p
    (∀ e d', x.line l = some e → e.moving = true →
      let t := moveTarget s.dev p l e
      t ≠ p → (s.dev.pan t).line l = none → allocate s.dev t l e.hint = some d' →
      Answers (exec (.migrationLineArrival p l) s) (fun s' => s'.boot = s.boot ∧ s'.dev.mem = s.dev.mem ∧ s'.dev.poison = s.dev.poison ∧
        (s'.dev.pan p).line l = some e ∧
        ∃ y, (s'.dev.pan t).line l = some y ∧ y.valid = e.valid ∧ y.dirty = e.dirty ∧ y.run = 0 ∧ y.filling = false)) ∧
    (∀ e y, x.line l = some e → e.moving = true →
      let t := moveTarget s.dev p l e
      let home := panOf s.dev (ownerOf s.dev l) l
      t ≠ p → (s.dev.pan t).line l = some y → p = home ∨ queued s.dev p l = false →
      ((s.dev.pan t).banks.getD (bankOf (l * 64)) []).length + (x.conflict.filter (asks s.dev l)).length ≤ 64 →
      Answers (exec (.migrationAck p l) s) (fun s' => s'.dev.mem = s.dev.mem ∧ (s'.dev.pan p).line l = none ∧
        (p = home ∨ (∀ f ∈ (s.dev.pan t).lines, f.1 = l → f.2.due = false) → (s'.dev.pan t).line l = some y) ∧ (p = home → (s'.dev.pan p).fwd = x.fwd ++ [(l, t)]) ∧
        (p ≠ home → ∀ f ∈ (s'.dev.pan home).fwd, f.1 ≠ l))) ∧
    (∀ c, x.fwd.find? (fun f => f.1 == l) = some (l, c) → (s.dev.pan c).line l = none → queued s.dev c l = false →
      (s.dev.pan c).conflict.any (asks s.dev l) = false →
      let y : Pan := { x with fwd := x.fwd.filter (fun f => f.1 != l), flushes := x.flushes.filter (fun f => f.1 != l) }
      ((∀ f ∈ x.flushes, f.1 ≠ l) → (∀ e ∈ x.lines, e.2.due = false) →
        exec (.evictionNotice p l) s = .next { s with dev := s.dev.setPan p y }) ∧
      (∀ m e, (∀ f ∈ x.flushes, f.1 ≠ l) → x.lines.filter (fun e => e.2.due) = [(m, e)] → x.line m = some e →
        let owner := ownerOf s.dev m
        let first := (s.dev.part owner).basePan
        e.run = 7 → e.lastCluster ≠ p → bit x.pcarve 10 = true → migrationHeld s.dev owner = false → movable s.dev p m e = true →
        p = panOf s.dev owner m → first ≤ e.lastCluster → e.lastCluster < first + (s.dev.part owner).pans → movedOut s.dev p ≤ 4096 →
        Answers (exec (.evictionNotice p l) s) (fun s' => s'.dev.mem = s.dev.mem ∧ (s'.dev.pan p).fwd = y.fwd ∧
          (s'.dev.pan p).line m = some { e with due := false, moving := true })) ∧
      (∀ q o u, x.flushes.filter (fun f => f.1 == l) = [(l, q)] → s.dev.ops.get? q.1 = some o → o.subs.get? q.2 = some u → o.kind = .cache →
        Answers (exec (.evictionNotice p l) s) (fun s' => s'.dev.mem = s.dev.mem ∧ (s'.dev.pan p).fwd = y.fwd ∧
          (s'.dev.pan p).flushes = y.flushes ∧ ∃ o' u', s'.dev.ops.get? q.1 = some o' ∧ o'.subs.get? q.2 = some u' ∧
            u'.st = .performed))) ∧
    (∀ v, let bad := 8 < bits v 3 0 ∨ (bits v 3 0 ≠ bits x.pcarve 3 0 ∧ bits x.pcarve 3 0 ≠ bits x.pcarve 7 4)
      (256 ≤ p → exec (.pcarveWrite p v) s = .next s) ∧
      (p < 256 → bad → exec (.pcarveWrite p v) s = .next { s with dev := s.dev.setPan p { x with pcarve := x.pcarve ||| 512#64 } }) ∧
      (p < 256 → ¬ bad → Answers (exec (.pcarveWrite p v) s) (fun s' => s'.boot = s.boot ∧ s'.dev.mem = s.dev.mem ∧
        let y := s'.dev.pan p
        bits y.pcarve 3 0 = bits v 3 0 ∧ bits y.pcarve 7 4 = bits x.pcarve 7 4 ∧ bit y.pcarve 10 = bit v 10 ∧ y.lines = x.lines ∧
          y.shadow = x.shadow))) ∧
    (x.draining = none → (nextReturn x = none → exec (.wayDrainComplete p) s = .next s) ∧
      (∀ w, nextReturn x = some w → Answers (exec (.wayDrainComplete p) s) (fun s' => s'.boot = s.boot ∧ s'.dev.mem = s.dev.mem ∧
        let y := s'.dev.pan p
        y.lines = x.lines ∧ y.shadow = x.shadow &&& ~~~ BitVec.ofNat 16 (2 ^ w) ∧ x.shadow.getLsbD w = true ∧
          (∀ i, w < i → i < 16 - bits x.pcarve 3 0 → x.shadow.getLsbD i = false) ∧
          bits y.pcarve 3 0 = bits x.pcarve 3 0 ∧ bits y.pcarve 7 4 + 1 = bits x.pcarve 7 4))) ∧
    (∀ w, x.draining = some w →
      let held := fun (e : Nat × PanLine) => e.2.filling || e.2.moving || !e.2.pins.isEmpty || e.2.owned s.dev.clock || locked x e.1
      ((∀ e ∈ x.lines, e.2.way = w → held e = false) → Answers (exec (.wayDrainComplete p) s) (fun s' =>
        s'.boot = s.boot ∧ s'.dev.mem = s.dev.mem ∧ (s'.dev.pan p).lines = x.lines.filter (fun e => e.2.way != w) ∧
        (s'.dev.pan p).shadow = x.shadow ||| BitVec.ofNat 16 (2 ^ w))) ∧
      (∀ e ∈ x.lines, e.2.way = w → held e = true → Answers (exec (.wayDrainComplete p) s) (fun s' =>
        s'.dev.mem = s.dev.mem ∧ (s'.dev.pan p).lines = x.lines.filter (fun e => e.2.way != w || held e) ∧
        (s'.dev.pan p).draining = some w ∧ (s'.dev.pan p).shadow = x.shadow))) ∧
    (∀ c y, (s.dev.cluster c).l1.get? l = some y → y.filled + 2048 ≤ s.dev.clock → exec (.l1AgeOut c l) s =
      .next { s with dev := s.dev.setCluster c { s.dev.cluster c with l1 := (s.dev.cluster c).l1.erase l } })

/-! ### Translation, key-value answers and copies -/

/-- R71 to R74: a walk through four valid tables in the partition's windows finds the leaf of a 64 KiB page, and an invalid entry is
NOTMAPPED. R72: PTBASE takes a value whose reserved bits are 0, and walks in progress of the partition are void, or it sets REJ. R77: the
oldest miss takes a free walker; the answer of a walk goes to every requester, and a leaf into the die's TLB. R83 to R85: GO of XINVC removes
the range from every TLB, and DONE comes when no reader is left, a pin on a line of the range among them (R284). The model's choices:
WALK_COMPLETE reads all its tables at one instant (log 12), and a refused XINVC keeps what it holds beside REJ (log 91). -/
def Obligations.TranslationsAreWalkedAndDropped : Prop :=
  ∀ (s : State) (p : Nat), let d := s.dev
    (∀ (base : W64) (va t3 t2 t1 t0 : Nat), bit base 0 = true → t3 = bits base 51 12 * 4096 →
      isOutside t3 = false →
      let e := fun (level table : Nat) => BitVec.ofNat 64 (devReadN d (table + 8 * levelIndex level va) 8)
      let pointer := fun (level table next : Nat) => bit (e level table) 0 = true ∧ bit (e level table) 1 = false ∧
        pteBad level (e level table) = false ∧ next = bits (e level table) 51 8 * 256 ∧ isOutside next = false ∧
        inWindows d p table (if level = 1 then 256 else 4096) = true
      (pointer 3 t3 t2 → pointer 2 t2 t1 → pointer 1 t1 t0 → inWindows d p t0 4096 = true →
        let leaf := e 0 t0
        let page := bits leaf 51 16 * 65536
        (bit leaf 0 = true → bit leaf 1 = true → pteBad 0 leaf = false → isOutside page = false → inWindows d p page 65536 = true →
          (walk d p base va []).1 = .leaf ⟨page, 0, bits leaf 5 4, bit leaf 3, bit leaf 2⟩) ∧
        (bit leaf 0 = false → (walk d p base va []).1 = .fault .notMapped)) ∧
      (inWindows d p t3 4096 = true → bit (e 3 t3) 0 = false → (walk d p base va []).1 = .fault .notMapped)) ∧
    (∀ v : W64, let good := bits v 63 52 = 0 ∧ bits v 11 2 = 0
      (¬ good → exec (.ptbaseWrite p v) s = .next { s with dev := d.setPart p { d.part p with ptbase := (d.part p).ptbase ||| 2#64 } }) ∧
      (good → Answers (exec (.ptbaseWrite p v) s) (fun t => t.boot = s.boot ∧ t.dev.mem = d.mem ∧ t.dev.warps = d.warps ∧
        t.dev.part p = { d.part p with ptbase := v &&& ~~~ 2#64 } ∧ ∀ die n w, (d.die die).walkers.get? n = some w →
          (t.dev.die die).walkers.get? n = some { w with stale := w.stale || decide (w.part = p) }))) ∧
    (∀ die w rest i, (d.die die).misses = w :: rest → i < 64 → (d.die die).walkers.get? i = none →
      (∀ j, j < i → ((d.die die).walkers.get? j).isSome = true) → Answers (exec (.walkStart die) s) (fun t =>
        (t.dev.die die).misses = rest ∧ (t.dev.die die).walkers.get? i = some { w with base := (d.part w.part).ptbase, stale := false })) ∧
    (∀ die n w, (d.die die).walkers.get? n = some w →
      let found := (walk d w.part w.base (w.page * 65536) (d.die die).ptrs).1
      let told := fun (t : State) (r : XRes) => ∀ who ∈ w.who, match who with
        | .thread k | .lanes k => ∀ x, d.warps.get? k = some x → ∃ y, t.dev.warps.get? k = some y ∧
          (w.page, r) ∈ (if who = .lanes k then y.xl else y.xs) ∧ y.sregs = x.sregs ∧ y.vregs = x.vregs ∧ y.spc = x.spc
        | _ => ⟨who, w.part, w.page, r⟩ ∈ (t.dev.die die).answers
      (w.stale = true → exec (.walkComplete die n) s =
        .next { s with dev := d.setDie die { d.die die with walkers := (d.die die).walkers.erase n } }) ∧
      (∀ c, w.stale = false → found = .fault c → Answers (exec (.walkComplete die n) s) (fun t => t.dev.mem = d.mem ∧
        (t.dev.die die).walkers.get? n = none ∧ told t (.fault c))) ∧
      (∀ l, w.stale = false → found = .leaf l → Answers (exec (.walkComplete die n) s) (fun t => t.dev.mem = d.mem ∧
        (t.dev.die die).walkers.get? n = none ∧ told t (.leaf l) ∧
        tlbFind (t.dev.die die).tlb w.part (w.page * 65536) = some l))) ∧
    (∀ v : W64, let busy := bit (d.part p).xinvc 63
      let r := shootRange (d.part p).xinva v
      (bits v 1 0 = 3 ∨ (bit v 63 = true ∧ busy = true) → exec (.xinvcGo p v) s =
        .next { s with dev := d.setPart p { d.part p with xinvc := (d.part p).xinvc ||| 0x2000000000000000#64 } }) ∧
      (bits v 1 0 ≠ 3 → bit v 63 = true → busy = false → Answers (exec (.xinvcGo p v) s) (fun t => t.boot = s.boot ∧ t.dev.mem = d.mem ∧
        bit (t.dev.part p).xinvc 63 = true ∧ (t.dev.part p).shoot = some r ∧
        (∀ c, ∀ e ∈ (t.dev.cluster c).tlb, e.part = p → leafMeets r e.va e.leaf.reach = false) ∧
        (∀ c, ∀ e ∈ (t.dev.die c).tlb, e.part = p → leafMeets r e.va e.leaf.reach = false) ∧
        (∀ c, ∀ e ∈ (t.dev.engine c).tlb, e.part = p → leafMeets r e.va e.leaf.reach = false)))) ∧
    (∀ r, (d.part p).shoot = some r →
      (readersLeft d p r = true → exec (.shootdownDone p) s = .next s) ∧
      (readersLeft d p r = false → Answers (exec (.shootdownDone p) s) (fun t => t.dev.mem = d.mem ∧
        (t.dev.part p).shoot = none ∧ bit (t.dev.part p).xinvc 63 = false ∧ bit (t.dev.part p).xinvc 62 = true)))

/-- R88, R91, R92: the return of a kvx lane's entry writes the tagged address of its block into vD, unless NOWB is set, and false into pM, or,
when the entry is not valid, true into pM and a BLOCKMISS record. R94, R95: an invalidation drops the entries of its sequence and blocks, and
every header, from a cluster, and T falls with the last cluster's acknowledgement.
R188: an engine takes a job of its queue, of its other cluster first, while fewer than four run. R177, R182, R189, R191: the copy of a
one-dimensional description reads the lines of its next element once the warp's earlier accesses to them and the pan allow it, and puts the
elements that lie in them into the window's scratch, and nothing else; with the last element the window becomes present, counts a fill,
makes its gate's arrival, and is held by what waits for it, and a lane stream that was parked on it alone is a candidate from then on (R360).
R190: a source page that is not mapped leaves it filling, with a fault record. The model's choices: the lines of an element are read at one
instant (log 31), and kvx uses the bytes of a poisoned entry as they are (log 34). -/
def Obligations.KvAnswersReturnAndCopiesFill : Prop :=
  ((∀ (s : State) (id lane i dst lsel pm : Nat) (nowb : Bool) (o : MemOp) (u : Sub) (r : Remote) (w : Warp), s.dev.ops.get? id = some o →
    o.kind = .kvx dst lsel pm nowb → o.subs = [(i, u)] → o.remotes = [(lane, r)] → r.crew = i → u.st = .performed → o.failed = [] →
    replyDue s.dev o u = true →
    o.left = 0 → lane < 64 → o.lanes.getLsbD lane = true → s.dev.warps.get? o.warp = some w →
    let e := kvEntryOf o i
    let pa := bits e 51 6 * 64 + r.off
    let value := 2 ^ 63 + o.part % 16 * 2 ^ 52 + pa
    (bit e 0 = true → bits e 5 1 = 0 → pa < 2 ^ 52 → Answers (exec (.kvxEntryReturn id) s) (fun t => t.boot = s.boot ∧
      t.dev.mem = s.dev.mem ∧ t.dev.ops.get? id = none ∧
      ∃ w', t.dev.warps.get? o.warp = some w' ∧ w'.outT = (w.returned .t id).outT ∧ w'.wstat = w.wstat ∧ w'.sregs = w.sregs ∧
        (nowb = true → w'.vregs = w.vregs) ∧ (nowb = false →
          laneGet (w'.v dst) lane = BitVec.ofNat 32 value ∧ laneGet (w'.v (dst + 1)) lane = BitVec.ofNat 32 (value / 2 ^ 32)) ∧
        (w'.p pm).getLsbD lane = false)) ∧
    (bit e 0 = false → Answers (exec (.kvxEntryReturn id) s) (fun t => t.boot = s.boot ∧ t.dev.ops.get? id = none ∧
      (t.dev.part o.part).fseq = (s.dev.part o.part).fseq + 1 ∧
      ∃ w', t.dev.warps.get? o.warp = some w' ∧ w'.vregs = w.vregs ∧ (w'.p pm).getLsbD lane = true))) ∧
  (∀ (s : State) (id c seq first count : Nat) (o : MemOp) (w : Warp), s.dev.ops.get? id = some o → o.kind = .kvinv seq first count →
    o.waits.contains c = true → kvInFlight s.dev c = [] → (∀ e ∈ (s.dev.cluster c).kvinv, e.1 ≠ id) → s.dev.warps.get? o.warp = some w →
    (∀ e ∈ w.acquires, e.1 ≠ id) → o.subs = [] → o.remotes = [] → o.left = 0 → o.bad = [] → o.path = .t →
    let there := fun (x : Warp) => if x.cluster == c then { x with rl := Reads.empty } else x
    let seen : Tab Warp := s.dev.warps.map (fun e => (e.1, there e.2))
    Answers (exec (.kvinvAck id c) s) (fun t => t.boot = s.boot ∧ t.dev.mem = s.dev.mem ∧ (t.dev.cluster c).kvh = [] ∧
      (∀ e ∈ (t.dev.cluster c).kv, e.part = o.part → e.seq = seq → first ≤ e.block → e.block < first + count → 2 ^ 32 ≤ e.block) ∧
      ((∀ x ∈ o.waits, x = c) → t.dev.ops.get? id = none ∧ t.dev.warps = seen.set o.warp (((there w).release id).returned .t id)) ∧
      ((∃ x ∈ o.waits, x ≠ c) → t.dev.warps = seen ∧ t.dev.ops.get? id = some { o with waits := o.waits.filter (· != c) })))) ∧
  ((∀ (s : State) (e : Nat), let x := s.dev.engine e
    (4 ≤ (x.jobs.filter (·.running)).length → exec (.copyJobStart e) s = .next s) ∧
    (∀ j, (x.jobs.filter (·.running)).length < 4 →
      (x.queue.find? (fun j => j.crew / 32 != x.last) = some j ∨
        (x.queue.find? (fun j => j.crew / 32 != x.last) = none ∧ x.queue.head? = some j)) →
      Answers (exec (.copyJobStart e) s) (fun t => t.dev.mem = s.dev.mem ∧ (t.dev.engine e).last = j.crew / 32 ∧
        (∀ i ∈ (t.dev.engine e).jobs, i.crew = j.crew → i.win = j.win → i.running = true) ∧
        (t.dev.engine e).jobs.map (fun i => (i.crew, i.win)) = x.jobs.map (fun i => (i.crew, i.win))))) ∧
  (∀ (s : State) (ck n : Nat) (c : Crew) (j : Job), s.dev.crews.get? ck = some c →
    let e := engineOf c.cluster
    (s.dev.engine e).jobs.find? (fun j => j.crew == ck && j.win == n) = some j → j.running = true → j.fseqs = [] →
    let x := c.win n
    let p := c.id.part
    let src := dSrc x.desc
    let esz := dEsz x.desc
    let count := dCount x.desc 0
    let size := count * esz
    let base := c.sbase + dSoff x.desc
    let finds := fun (va : Nat) => agentX s.dev (c.cluster / 64) (s.dev.engine e).tlb (.job ck n) p va .read
    dTranspose x.desc = false → dGather x.desc = false → j.pos < count → 0 < esz → dLimit x.desc 0 = count →
    (∀ k, 1 ≤ k → k < 4 → dCount x.desc k = 1 ∧ dLimit x.desc k = 1) → src + size ≤ 2 ^ 48 →
    src / 65536 = (src + size - 1) / 65536 →
    (∀ l, (∀ k, k < size → finds (src + k) = .hit (l.pa (src + k)) l) → (∀ k, k < size → badSector s.dev (l.pa (src + k) / 16) = false) →
      let pa := l.pa src
      let lines := linesOf (pa + j.pos * esz) esz
      let ends := (pa + (j.pos + 1) * esz - 1) / 64 * 64 + 64
      let new := min count ((ends - pa) / esz)
      earlierAccess s.dev c.cluster x lines = false → (∀ i ∈ lines, engineReady s.dev p i = true) →
      Memory.wf (s.dev.cluster c.cluster).scratch = true →
      Answers (exec (.windowFillComplete ck n) s) (fun t => t.boot = s.boot ∧ t.dev.mem = s.dev.mem ∧
        (∀ k y, s.dev.warps.get? k = some y → ∃ z, t.dev.warps.get? k = some z ∧ z = { y with lready := z.lready } ∧
          (new < count → z = y) ∧ (new = count → y.crewKey = ck → y.lpark = .window [n] [] false → z.lready = s.dev.clock)) ∧
        (∀ k, j.pos * esz ≤ k → k < new * esz → memRead (t.dev.cluster c.cluster).scratch (base + k) = devRead s.dev (l.pa (src + k))) ∧
        (∀ a, a < base + j.pos * esz ∨ base + new * esz ≤ a →
          memRead (t.dev.cluster c.cluster).scratch a = memRead (s.dev.cluster c.cluster).scratch a) ∧
        (new < count → t.dev.crews = s.dev.crews ∧
          ∀ i ∈ (t.dev.engine e).jobs, i.crew = ck → i.win = n → i = { j with pos := new }) ∧
        (new = count → t.dev.win ck n = { x with
            state := .present, fills := (x.fills + 1) % 2 ^ 32, filler := .none, got := 0, asking := 0,
            holds := x.holds + (s.dev.mops.filter (fun o => o.2.crew == ck && o.2.wants.contains n)).length +
              (s.dev.colls.filter (fun o => o.crew == ck && o.id == c.id && o.wants.contains n)).length } ∧
          (∃ c', t.dev.crews.get? ck = some c' ∧
            c'.arrivals = (if dGnone x.desc then c.arrivals else (c.arrive (dGate x.desc)).arrivals)) ∧
          ∀ i ∈ (t.dev.engine e).jobs, ¬ (i.crew = ck ∧ i.win = n)))) ∧
    (finds (src + j.pos * esz) = .miss → exec (.windowFillComplete ck n) s =
      .next { s with dev := addMiss s.dev (c.cluster / 64) p (src + j.pos * esz) (.job ck n) }) ∧
    (finds (src + j.pos * esz) = .fault .notMapped →
      Answers (exec (.windowFillComplete ck n) s) (fun t => t.boot = s.boot ∧ t.dev.win ck n = x ∧
        ∃ r, (t.dev.part p).open_ = (s.dev.part p).open_ ++ [r] ∧ r.addr = (src + j.pos * esz) / 65536 * 65536 ∧ r.code = .notMapped ∧
          r.kind = 0 ∧ ∀ i ∈ (t.dev.engine e).jobs, i.crew = ck → i.win = n → i.fseqs = [r.fseq]))))

/-! ### Group loads -/

/-- R160 to R170, R477: the first ask of a load makes a holding record, and an ask for something else is a group error; the last expected ask,
or the timer, releases it with an offer to every member; a member's cluster that accepts starts its window's fill; with the last answer the
lines are sent; a line that its pan lacks is fetched, and each line is read once for every member and written to its window, whose last line
ends its fill; with the last DONE, or after a group error, the completion record is written at the group's address, once no pin keeps it
waiting (R284), or a peer has acknowledged it, and INIT's gate gets its arrival while INIT is a member; a lingering copy goes after its time.
The model's choices are those of log 101: which offers are refused, and which lingering record is the oldest. -/
def Obligations.GroupLoadsRunThroughTheirRecord : Prop :=
  ∀ (s : State) (p gid m : Nat) (g : Group), s.dev.group p gid = some g → m < 64 →
    let pan := recordPan s.dev p gid
    let recs := (s.dev.pan pan).records
    let b : Mask := BitVec.ofNat 64 (2 ^ m)
    let same := fun (t : State) => t.boot = s.boot ∧ t.turns = s.turns ∧ t.dev.mem = s.dev.mem
    (∀ srcpa size rest who, g.asks = (m, srcpa, size) :: rest → g.members.get? m = some who → (∀ r ∈ recs, r.gid ≠ gid) →
      restoredAsks s.dev p gid = [] →
      let first : GRec := ⟨gid, .holding, srcpa, size, m, who.2.1, b, s.dev.clock, 0, 0, 0, 0, 0, 0, 0, 0, false, false, 0, [], [], 0, false, none⟩
      (g.members.length ≠ g.count ∨ b ≠ g.mask → 0 < g.timer → Answers (exec (.groupAsk p gid) s) (fun t => same t ∧
        (t.dev.pan pan).records = addRec recs first ∧ t.dev.group p gid = some { g with asks := rest })) ∧
      (g.members.length = g.count → b = g.mask → Answers (exec (.groupAsk p gid) s) (fun t => same t ∧
        t.dev.group p gid = some { g with asks := rest, seq := g.seq + 1 } ∧
        { first with state := .offering, offered := g.mask, seq := g.seq + 1 } ∈ (t.dev.pan pan).records))) ∧
    (∀ srcpa size rest r, g.asks = (m, srcpa, size) :: rest → g.members.get? m ≠ none → restoredAsks s.dev p gid = [] →
      recs.find? (holdingOf gid) = some r → (∀ x ∈ recs, x.gid = gid → x.state = .holding) → (r.srcpa ≠ srcpa ∨ r.size ≠ size) →
      Answers (exec (.groupAsk p gid) s) (fun t => same t ∧
        { r with state := .failing, status := 2, errpa := srcpa, seq := g.seq } ∈ (t.dev.pan pan).records ∧
        ∀ i e ck c n x, g.members.get? i = some e → memberCrew s.dev g i = some (ck, c) → groupWin c gid = some (n, x) → x.errs = true →
          (t.dev.win ck n).gerr = true)) ∧
    (∀ r, recs.find? (holdingOf gid) = some r → (∀ x ∈ recs, activeOf gid x = false) →
      (g.timer ≤ 3 * (s.dev.clock - r.born) → r.ask ≠ g.mask → Answers (exec (.groupTimerExpiry p gid) s) (fun t => same t ∧
        { r with state := .offering, offered := g.mask, seq := g.seq + 1, status := 1 } ∈ (t.dev.pan pan).records)) ∧
      (3 * (s.dev.clock - r.born) < g.timer → r.ask ≠ g.mask → exec (.groupTimerExpiry p gid) s = .next s)) ∧
    (∀ r, activeRec s.dev p gid = some r →
      (r.state = .offering → r.offered.getLsbD m = true → r.sent.getLsbD m = false →
        (∀ ck c n x, memberCrew s.dev g m = some (ck, c) → groupWin c gid = some (n, x) → x.gerr = false → dSize x.desc = r.size →
          c.save = .none → x.state = .absent ∨ (x.state = .filling ∧ x.filler = .ask) → Answers (exec (.groupOffer p gid m) s) (fun t => same t ∧
            t.dev.win ck n = { x with state := .filling, filler := .fill, got := 0 } ∧
            activeRec t.dev p gid = some { r with sent := r.sent ||| b, accepted := r.accepted ||| b })) ∧
        (memberCrew s.dev g m = none → Answers (exec (.groupOffer p gid m) s) (fun t => same t ∧ t.dev.crews = s.dev.crews ∧
          activeRec t.dev p gid = some { r with sent := r.sent ||| b }))) ∧
      (r.state = .offering → r.sent.getLsbD m = true → r.answered.getLsbD m = false →
        Answers (exec (.groupAnswer p gid m) s) (fun t => same t ∧ t.dev.crews = s.dev.crews ∧
          activeRec t.dev p gid = some { r with
            answered := r.answered ||| b
            state := if r.answered ||| b = r.offered then (if r.accepted = 0 then .completing else .filling) else .offering })) ∧
      (∀ ck c n x i, memberCrew s.dev g m = some (ck, c) → groupWin c gid = some (n, x) → c.win n = x → x.state = .filling → x.filler = .fill →
        x.got.testBit i = false → (∀ e ∈ g.resends, e.1 ≠ m) → r.state = .filling → r.accepted.getLsbD m = true →
        r.filled.getLsbD m = false → i < r.size / 64 → Memory.wf (s.dev.cluster c.cluster).scratch = true →
        let q := panOf s.dev p (r.srcpa / 64 + i)
        let l := r.srcpa / 64 + i
        let base := c.sbase + dSoff x.desc + 64 * i
        let last := x.got ||| 2 ^ i = 2 ^ (r.size / 64) - 1
        (r.lines.get? i = none → currentPan s.dev p l = q → lineFree s.dev l = true → missing (s.dev.pan q) (Sub.new l .load) ≠ 0 →
          allocate s.dev q l 0 ≠ none → Answers (exec (.groupFillLine p gid m i) s) (fun t => same t ∧ t.dev.crews = s.dev.crews ∧
            activeRec t.dev p gid = some r ∧ ∃ e, (t.dev.pan q).line l = some e ∧ e.filling = true)) ∧
        ∀ v, (r.lines.get? i = some v ∨ (r.lines.get? i = none ∧ lineSendable s.dev p l = true ∧ v = (lineAt s.dev l, linePoison s.dev l))) →
          Answers (exec (.groupFillLine p gid m i) s) (fun t => same t ∧
            memReadN (t.dev.cluster c.cluster).scratch base 64 = v.1.toNat ∧
            (¬ last → t.dev.win ck n = { x with got := x.got ||| 2 ^ i }) ∧
            (last → t.dev.win ck n = { x with
              state := .present, fills := (x.fills + 1) % 2 ^ 32, filler := .none, got := 0, asking := 0,
              holds := x.holds + (s.dev.mops.filter (fun o => o.2.crew == ck && o.2.wants.contains n)).length +
                (s.dev.colls.filter (fun o => o.crew == ck && o.id == c.id && o.wants.contains n)).length }) ∧
            activeRec t.dev p gid = some { r with
              lines := r.lines.set i v
              dataErr := r.dataErr || v.2 != 0
              filled := if x.got ||| 2 ^ i = 2 ^ (r.size / 64) - 1 then r.filled ||| b else r.filled })) ∧
      (r.state = .filling → r.filled.getLsbD m = true → Answers (exec (.groupDone p gid m) s) (fun t => same t ∧
        activeRec t.dev p gid = some { r with
          done := r.done ||| b, state := if r.done ||| b = r.accepted then .completing else .filling })) ∧
      (r.state = .completing → r.waiting = [] → (∀ x ∈ recs, x.gid = gid → x = r ∨ x.state = .lingering) → recs.filter (activeOf gid) = [r] →
        let ends := fun (mem : Mem) => Answers (exec (.completionWritePerformed p gid) s) (fun t => t.boot = s.boot ∧
          t.dev.mem = mem ∧ activeRec t.dev p gid = none ∧
          (g.linger ≠ 0 → { r with state := .lingering, linger := s.dev.clock, waiting := [], lines := [] } ∈ (t.dev.pan pan).records) ∧
          (∀ ck c gate, g.members.get? r.init = some (ck, c.id, true, gate) → s.dev.crews.get? ck = some c →
            t.dev.crews = if c.id = r.initId then s.dev.crews.set ck (c.arrive gate) else s.dev.crews))
        (r.put = none → isPeer g.cpa = false → storeWaits s.dev p g.cpa 64 = false →
          ends (memWriteN s.dev.mem g.cpa 64 (completionBytes r))) ∧
        (∀ i, r.put = some i → s.dev.ops.get? i = none → ends s.dev.mem) ∧
        ((∃ i, r.put = some i ∧ s.dev.ops.get? i ≠ none) ∨ (r.put = none ∧ isPeer g.cpa = false ∧ storeWaits s.dev p g.cpa 64 = true) →
          Answers (exec (.completionWritePerformed p gid) s) (fun t => same t ∧ t.dev.crews = s.dev.crews ∧
            activeRec t.dev p gid = some r)) ∧
        (r.put = none → isPeer g.cpa = true → Answers (exec (.completionWritePerformed p gid) s) (fun t => same t ∧
          t.dev.crews = s.dev.crews ∧ ∃ i, activeRec t.dev p gid = some { r with put := i })))) ∧
    (∀ r, recs.filter (dueOf gid) = [r] → r.state = .failing → r.put = none → isPeer g.cpa = false → storeWaits s.dev p g.cpa 64 = false →
      Answers (exec (.completionWritePerformed p gid) s) (fun t => t.boot = s.boot ∧
        t.dev.mem = memWriteN s.dev.mem g.cpa 64 (completionBytes r) ∧ ∀ x ∈ (t.dev.pan pan).records, dueOf gid x = false)) ∧
    (∀ pos r, recs[pos]? = some r → r.gid = gid → r.state = .lingering →
      (g.linger ≤ 3 * (s.dev.clock - r.linger) → Answers (exec (.lingerExpiry p gid pos) s) (fun t => same t ∧
        (t.dev.pan pan).records = recs.eraseIdx pos)) ∧
      (3 * (s.dev.clock - r.linger) < g.linger → exec (.lingerExpiry p gid pos) s = .next s))

/-! ### The matrix engine and the rake -/

/-- R274, R281 to R283, R288: a pin of a line takes its value at the pin into a slot of the hold buffer, and a later one shares the slot; a
slot that no operation references or will pin frees, and the last pin of a line ends its flushes; an operation starts when its lines are pinned
and its windows held, and one that waits for a window will hold it when it becomes present;
when it is complete, the rows that its mask selects hold their elements. R242: on the integer path each group of 16 products adds to the
accumulator and saturates. R298, R299: a drain without a descriptor writes the tile's row of each lane to 64 registers. R285: a pin follows the
writes of its own warp to the line. The model's choices: which slot a queued operation keeps (log 99), and one instant for an operation's plain
scratch (log 112). -/
def Obligations.MatrixOperationsRun : Prop :=
  (∀ (s : State) (c id v pa : Nat) (l : Leaf) (o : MOp) (cr : Crew) (nest : Nest), let d := s.dev
    d.mops.get? id = some o → (d.cluster c).mq.contains id = true → d.crews.get? o.crew = some cr → d.nests.get? cr.id.nest = some nest →
    nest.ending = false →
    let line := pa / 64
    let pan := currentPan d cr.id.part line
    (v ∈ o.vlines → pinXlate d c cr.id.part id v = .hit pa l →
      let joined := fun (t : State) => ∃ o', t.dev.mops.get? id = some o' ∧ o'.vlines = o.vlines.filter (· != v) ∧
        o'.pins = o.pins ++ [(v, line)] ∧ o'.started = o.started
      (∀ h, (d.cluster c).holds.get? line = some h → writeBefore d o.warp id line = true → exec (.pin c id v) s = .next s) ∧
      ((d.cluster c).holds.get? line = none → requestBefore d c id line = true ∨ slotsGranted d c id = false → exec (.pin c id v) s = .next s) ∧
      (∀ h, (d.cluster c).holds.get? line = some h → writeBefore d o.warp id line = false → Answers (exec (.pin c id v) s) (fun t => t.boot = s.boot ∧ t.dev.mem = d.mem ∧
        joined t ∧ (t.dev.cluster c).holds.get? line =
          some { h with
            refs := if h.refs.contains id then h.refs else h.refs ++ [id]
            names := if h.names.contains (cr.id.part, v) then h.names else h.names ++ [(cr.id.part, v)] })) ∧
      (∀ e, (d.cluster c).holds.get? line = none → requestBefore d c id line = false → slotsGranted d c id = true → (d.pan pan).conflict = [] →
        (∀ q ∈ d.ops, q.2.kind ≠ .pin id v) → blocked (d.pan pan) d.clock (bankOf (line * 64)) (Sub.new line .load) = false → (d.pan pan).line line = some e → e.valid = 15#4 →
        Answers (exec (.pin c id v) s) (fun t => t.boot = s.boot ∧ t.dev.mem = d.mem ∧ joined t ∧
          (t.dev.cluster c).holds.get? line = some ⟨lineAt d line, linePoison d line, [id], [(cr.id.part, v)]⟩ ∧
          ∃ e', (t.dev.pan pan).line line = some e' ∧ e'.pins = e.pins ++ [c] ∧ e'.valid = e.valid ∧ e'.dirty = e.dirty))) ∧
    (∀ n a b rows x, o.kind = .mma n a b rows x → o.started = false → o.fseqs = [] → o.vlines = [] → cr.save = .none →
      tileTurn d c id o = true →
      let wins := mopWins cr (mmaRanges n a b rows x)
      ((∀ i ∈ wins, i ∈ o.holds) → exec (.matrixOpStart c id) s =
        .next { s with dev := { d with mops := d.mops.set id { o with started := true } } }) ∧
      (∀ i, wins = [i] → i ∉ o.holds → (d.win o.crew i).state = .present → Answers (exec (.matrixOpStart c id) s) (fun t =>
        t.dev.mem = d.mem ∧ t.dev.win o.crew i = { d.win o.crew i with holds := (d.win o.crew i).holds + 1 } ∧
        t.dev.mops.get? id = some { o with started := true, holds := o.holds ++ [i] })) ∧
      (∀ i, wins = [i] → i ∉ o.holds → (d.win o.crew i).state = .filling → (d.win o.crew i).asking ≠ 1 →
        Answers (exec (.matrixOpStart c id) s) (fun t => t.dev.mem = d.mem ∧ t.dev.crews = d.crews ∧
          t.dev.mops.get? id = some { o with wants := if o.wants.contains i then o.wants else o.wants ++ [i] }))) ∧
    (∀ a b rows x tile, o.kind = .mma 1 a b rows x → o.started = true → o.tiles = [tile] →
      let pt := cr.tiles.getD tile 0
      let m : MSrc := ⟨d.cluster c, o.pins, cr.sbase⟩
      let old := fun (i : Nat) => (d.cluster c).tileRow pt i
      let wide := fmtBits (opndA a x).fmt == 16 || fmtBits (opndB b x).fmt == 16
      let value := fun (i j : Nat) => element (intPath (opndA a x) (opndB b x)) wide (fbAcc x) (opndVec m (opndA a x) (fbK x) i)
        (opndVec m (opndB b x) (fbK x) j) (laneGet (old i) j)
      Answers (exec (.matrixOpComplete c id) s) (fun t => t.boot = s.boot ∧ t.dev.mem = d.mem ∧ (t.dev.cluster c).mq.contains id = false ∧
        (t.dev.cluster c).scratch = (d.cluster c).scratch ∧
        (∀ i j, i < 64 → j < 64 → laneGet ((t.dev.cluster c).tileRow pt i) j =
          if rows.getLsbD i then BitVec.ofNat 32 (value i j).1 else laneGet (old i) j) ∧
        ∀ q, q / 64 ≠ pt → (t.dev.cluster c).tiles.get? q = (d.cluster c).tiles.get? q))) ∧
  (∀ (s : State) (c line : Nat) (h : Hold), (s.dev.cluster c).holds.get? line = some h →
    (h.refs ≠ [] ∨ keepsSlot s.dev c line h = true → exec (.unpin c line) s = .next s) ∧
    (∀ pan x e, h.refs = [] → keepsSlot s.dev c line h = false → s.dev.pans.find? (fun q => match q.2.line line with
        | some y => y.pins.contains c
        | none => false) = some (pan, x) → x.line line = some e →
      Answers (exec (.unpin c line) s) (fun t => t.boot = s.boot ∧ t.dev.mem = s.dev.mem ∧ (t.dev.cluster c).holds.get? line = none ∧
        (e.flushAt = [] → (t.dev.pan pan).line line = some { e with pins := e.pins.erase c }) ∧
        (e.flushAt ≠ [] → e.pins = [c] → (t.dev.pan pan).line line = none)))) ∧
  (∀ (xs ys : List Int) (acc : Int), xs.length = 16 → ys.length = 16 →
    let sum := acc + ((List.zip xs ys).map (fun e => e.1 * e.2)).sum
    let clamped := max (-2 ^ 31) (min sum (2 ^ 31 - 1))
    dotI 1 (xs.map intNum) (ys.map intNum) acc 0 = ((clamped % 2 ^ 32).toNat, if clamped = sum then 0 else fISAT)) ∧
  (∀ (s : State) (c id dst tile : Nat) (bias scale : List W32) (nm : W64) (o : MOp) (cr : Crew) (w : Warp), s.dev.mops.get? id = some o →
    o.kind = .drain dst none bias scale nm → o.tiles = [tile] → s.dev.crews.get? o.crew = some cr → s.dev.warps.get? o.warp = some w →
    (s.dev.cluster c).mq.contains id = true → tileTurn s.dev c id o = true →
    let after := ((w.drains.find? (fun e => e.1 == id)).map (·.2.1)).getD 0
    after ≤ w.blocks → earlierWritten s.dev w after = true →
    Answers (exec (.drainPerform c id) s) (fun t => t.boot = s.boot ∧ t.dev.mem = s.dev.mem ∧ t.dev.mops.get? id = none ∧
      (t.dev.cluster c).mq = (s.dev.cluster c).mq.filter (· != id) ∧ (t.dev.cluster c).tiles = (s.dev.cluster c).tiles ∧
      ∃ v, t.dev.warps = s.dev.warps.set o.warp { w with vregs := v, drains := w.drains.filter (fun e => e.1 != id) } ∧
        (∀ i j, i < 64 → j < 64 →
          laneGet (v.getD (dst + j) 0) i = laneGet ((s.dev.cluster c).tileRow (cr.tiles.getD tile 0) i) j) ∧
        ∀ r, r < dst ∨ dst + 64 ≤ r → v.getD r 0 = w.v r))

/-- R198, R343 to R345: a waiting nest's gang is placed when it fits and no nest of its partition that goes first can be placed, and its
warps start with zero registers. R340, R349: a finished point without children retires, and the rake goes on. R355, R389: a nest without
points, rows and crews is over: its record gets the completion code, 1, or 2 when it was ended, and its released points, its slot is free, and
its launcher is told; with the record on a peer page that is when the peer has acknowledged the store (R372). The model's choice: any
POINT_RETIRE of the nest is also the step that ends it (log 82). -/
def Obligations.GangsArePlacedAndPointsRetire : Prop :=
  ∀ (s : State) (nk : Nat) (n : Nest), s.dev.nests.get? nk = some n →
    let overs := fun (m : Nest) (code linear : Nat) => n.saved = [] →
      let gone := fun (mem : Mem) => Answers (exec (.pointRetire nk linear) s) (fun t => t.boot = s.boot ∧ t.dev.nests.get? nk = none ∧
        t.dev.mem = mem ∧
        t.dev.signals = s.dev.signals ++ (n.launch.map (fun q => (⟨q.1, q.2.1, q.2.2.1, q.2.2.2, none⟩ : Signal))).toList)
      let stays := Answers (exec (.pointRetire nk linear) s) (fun t => t.dev.mem = s.dev.mem ∧ t.dev.signals = s.dev.signals ∧
        ∃ n', t.dev.nests.get? nk = some n')
      (n.put = none → isPeer (n.pa + 192) = false → storeWaits s.dev n.part (n.pa + 192) 16 = false →
        gone (memWriteN s.dev.mem (n.pa + 192) 16 (code + 2 ^ 64 * m.released))) ∧
      (n.put = none → isPeer (n.pa + 192) = true ∨ storeWaits s.dev n.part (n.pa + 192) 16 = true → stays) ∧
      (∀ i, n.put = some i → s.dev.ops.get? i = none → gone s.dev.mem) ∧
      (∀ i, n.put = some i → s.dev.ops.get? i ≠ none → stays)
    (wantsGang s.dev nk n = false → exec (.gangPlacement nk) s = .next s) ∧
    (wantsGang s.dev nk n = true →
      (∀ e ∈ s.dev.nests, e.1 ≠ nk → e.2.part = n.part → n.prio < e.2.prio ∨ (n.prio = e.2.prio ∧ e.2.born < n.born) →
        wantsGang s.dev e.1 e.2 = false ∨ tryPlace s.dev e.1 e.2 = none) →
      (∀ d', tryPlace s.dev nk n = some d' → exec (.gangPlacement nk) s = .next { s with dev := rakeRun nk d' }) ∧
      (tryPlace s.dev nk n = none → exec (.gangPlacement nk) s = .next s)) ∧
    (∀ c slot pipe cslot wcrew now r, let w := freshWarp n c slot pipe cslot wcrew now
      w.s r = 0 ∧ w.v r = 0 ∧ w.p r = 0 ∧ (w.qp r = true ↔ r = 0) ∧ w.wstat = 0 ∧ w.nmode = 0 ∧ w.lanes = 64 ∧ w.valloc = n.gran ∧
        w.queue = [] ∧ w.outG = [] ∧ w.outX = [] ∧ w.outA = [] ∧ w.outT = []) ∧
    (∀ linear pt, n.ending = false → n.points.find? (fun q => q.pt.linear == linear && q.retires) = some pt →
      let left : Nest := { n with
        points := n.points.filter (fun q => q.pt.linear != linear)
        rows := n.rows.map (fun r => if r.i = pt.pt.idx.take n.outer then retireRow (pt.pt.idx.getD n.outer 0) r else r) }
      exec (.pointRetire nk linear) s = .next { s with dev := rakeRun nk (s.dev.setNest nk left) } ∧
      ((s.dev.part n.part).halted = false → (∀ e ∈ s.dev.crews, e.2.id.nest ≠ nk) →
        let m := settleRows rowFuel left.retireAll
        m.rows = [] → m.points = [] → m.nextRow = none → overs m 1 linear)) ∧
    (∀ linear, n.ending = true → s.dev.savedNests = [] → (∀ e ∈ s.dev.crews, e.2.id.nest ≠ nk) →
      (∀ e ∈ s.dev.nests, e.2.parent.map (·.1) ≠ some nk) → overs n 2 linear)

/-! ### Pre-emption -/

/-- R392 to R401: a request lets the crews of a gang be discarded, or saved at ppoint, and TSAVE later they are saved in full; a crew that
is quiet leaves its cluster with its registers in a context of its nest, whose image stands in the carved ways of the cluster's pan or in
the spill area, and a placed context goes on with them elsewhere. The model's choice: a restore takes the context from the nest's record, not from
the image in memory (log 27). -/
def Obligations.CrewsAreSavedAndRestored : Prop :=
  ∀ (s : State) (ck : Nat) (c : Crew) (n : Nest), s.dev.nests.get? c.id.nest = some n → n.ending = false →
    bsMinimal s.boot = false →
    let nk := c.id.nest
    let kept := fun (w w' : Warp) => w'.sregs = w.sregs ∧ w'.vregs = w.vregs ∧ w'.preds = w.preds ∧ w'.wstat = w.wstat ∧
      w'.nmode = w.nmode ∧ w'.lanes = w.lanes ∧ w'.valloc = w.valloc
    (s.dev.crews.get? ck = some c →
      (∀ pt, c.point = some pt → c.save = .none → (∀ e ∈ s.dev.crews, e.2.id.nest = nk → e.2.point ≠ none) →
        let again := n.idem = true ∧ ∀ q ∈ n.points, q.pt.linear = pt.linear → q.launched = false
        Answers (exec (.crewPreempt ck) s) (fun t => t.boot = s.boot ∧ t.dev.mem = s.dev.mem ∧ t.dev.warps = s.dev.warps ∧
          (again → t.dev.crews.get? ck = some { c with save := .discard, saveAt := s.dev.clock }) ∧
          (¬ again → t.dev.crews.get? ck = some { c with save := .pending, saveAt := s.dev.clock }))) ∧
      (c.save = .pending ∨ (c.save = .drain ∧ c.point ≠ none) → c.saveAt + tsave s.dev c.id.part ≤ s.dev.clock →
        Answers (exec (.tsaveExpiry ck) s) (fun t =>
        t.boot = s.boot ∧ t.dev.mem = s.dev.mem ∧ t.dev.warps = s.dev.warps ∧ t.dev.crews.get? ck = some { c with save := .full })) ∧
      ((∀ e ∈ gangOf s.dev c, s.dev.clock < e.2.saveAt + tsave s.dev e.2.id.part) → exec (.tsaveExpiry ck) s = .next s) ∧
      (gangOf s.dev c = [(ck, c)] → c.save = .full → n.retireAll.points ≠ [] → (∀ e ∈ s.dev.colls, e.id ≠ c.id) →
        (∀ k ∈ c.warps, ∃ w, s.dev.warps.get? k = some w ∧ w.outG = [] ∧ w.outX = [] ∧ w.outA = [] ∧ w.outT = [] ∧ w.install = none ∧
          w.stop = none ∧ w.replayOp = none) →
        (∀ e ∈ c.wins, e.2.filler ≠ .fill) →
        (∀ e ∈ s.dev.mops, e.2.crew = ck → e.2.started = false ∨ (s.dev.cluster c.cluster).mq.contains e.1 = false) →
        Answers (exec (.crewSave ck) s) (fun t => t.boot = s.boot ∧ t.dev.crews.get? ck = none ∧
          ((∃ m ∈ (t.dev.pan c.cluster).images, m.id = c.id) ∨ ∃ m ∈ (t.dev.part n.part).spill, m.id = c.id) ∧
          ∃ n' g x, t.dev.nests.get? nk = some n' ∧ g ∈ n'.saved ∧ x ∈ g ∧ x.crew.id = c.id ∧ x.crew.point = c.point ∧ x.full = true ∧
            ∀ (i k : Nat) (w : Warp), c.warps[i]? = some k → s.dev.warps.get? k = some w → ∃ w', x.warps[i]? = some w' ∧ kept w w'))) ∧
    (∀ gang x spot, n.saved.find? (fun g => g.any (fun x => x.crew.gang == gang)) = some [x] → n.stopped = false →
      (s.dev.part n.part).halted = false → n.crewMax = 0 → (∀ e ∈ s.dev.crews, e.2.id.nest ≠ nk) → x.crew.id.nest = nk →
      x.crew.point ≠ none → (s.dev.part n.part).spanLog = 0 →
      let fit : Fit := ⟨x.warps.map (·.valloc), x.crew.ssize, x.crew.tiles.keys.foldl (fun m t => m + 2 ^ t) 0⟩
      chooseSpot s.dev fit (s.dev.part n.part).firstSpan = some spot →
      Answers (exec (.crewRestore nk gang) s) (fun t => t.boot = s.boot ∧
        (∃ c', t.dev.crews.get? (spot.cluster * 32 + spot.cslot) = some c' ∧ c'.id = x.crew.id ∧ c'.point = x.crew.point ∧
          c'.warps = spot.slots.map (· + spot.cluster * 32)) ∧
        (∀ (i k : Nat) (w : Warp), x.warps[i]? = some w → spot.slots[i]? = some k →
          ∃ w', t.dev.warps.get? (spot.cluster * 32 + k) = some w' ∧ kept w w' ∧ w'.cluster = spot.cluster ∧ w'.wslot = k) ∧
        ∃ n', t.dev.nests.get? nk = some n' ∧ ∀ g ∈ n'.saved, g.any (fun x => x.crew.gang == gang) = false))

/-- R402 to R405: a nest-level save stops a nest's releases and lets its crews drain, and with none resident the nest leaves its slot for the
save area; a saved nest takes a slot again, with what its save area holds. A partition is halted, its queues unmapped and its crews saved in full; it can then be
restored. An arrival that finds another crew is counted in its crew's mailbox, forwarded, or discarded. The model's choice: the nest takes the
lowest free slot of the rake (log 44). -/
def Obligations.NestsAndPartitionsAreSwapped : Prop :=
  ∀ (s : State), bsMinimal s.boot = false → let d := s.dev
    (∀ nk n, d.nests.get? nk = some n → n.ending = false → (d.part n.part).halted = false →
      (∀ e ∈ d.nests, e.2.parent.map (·.1) ≠ some nk) → (waitingPts n).length + n.rerun.length + (savedPts n).length ≤ 192 →
      (∀ ck c, n.stopped = false → d.crews.get? ck = some c → c.id.nest = nk → c.save = .none →
        (∀ e ∈ d.crews, e.2.id.nest = nk → e.2.point ≠ none) → Answers (exec (.nestPreempt nk) s) (fun t => t.boot = s.boot ∧
          t.dev.mem = d.mem ∧ t.dev.crews.get? ck = some { c with save := .drain, saveAt := d.clock } ∧
          ∃ n', t.dev.nests.get? nk = some n' ∧ n'.stopped = true)) ∧
      (∀ l, n.stopped = true → (∀ e ∈ d.crews, e.2.id.nest ≠ nk) → areaPlaces d nk n.part (recField n.record 40 8) .write = some l →
        l.any (fun a => storeWaits d n.part a 16) = false → Answers (exec (.nestPreempt nk) s) (fun t => t.boot = s.boot ∧ t.dev.nests.get? nk = none ∧
          ∃ e ∈ t.dev.savedNests, e.nest.record = n.record ∧ e.nest.points = n.points ∧ e.nest.saved = n.saved ∧
            e.nest.rows = n.rows ∧ e.nest.hc = n.hc ∧ e.save = l.headD 0))) ∧
    (∀ (i : Nat) (e : SavedNest) rake slot, d.savedNests[i]? = some e → e.nest.ending = false → (d.part e.nest.part).halted = false →
      rakeFor d ((d.part e.nest.part).firstSpan / 4) = some rake →
      (List.range 64).find? (fun i => (d.nests.get? (rake * 64 + i)).isNone) = some slot →
      (∀ x ∈ d.crews, x.2.id.nest ≠ rake * 64 + slot) → ∀ places,
      areaPlaces d (rake * 64 + slot) e.nest.part (recField e.nest.record 40 8) .read = some places →
      let m := reloadNest e.nest (places.map (fun a => devReadN d a 16))
      places.any (fun a => (linesOf a 16).any (fun l => agentWaits d e.nest.part (Sub.new l .load))) = false → m.retireAll.points ≠ [] → Answers (exec (.nestRestore i) s) (fun t => t.boot = s.boot ∧ t.dev.mem = d.mem ∧ (∀ x ∈ t.dev.savedNests, x.nest.born ≠ e.nest.born) ∧
        ∃ n', t.dev.nests.get? (rake * 64 + slot) = some n' ∧ n'.record = e.nest.record ∧ n'.released = m.released ∧
          n'.points = m.retireAll.points ∧ n'.stopped = false)) ∧
    (∀ p, (d.part p).halted = false → Answers (exec (.partitionPreempt p) s) (fun t => t.boot = s.boot ∧ t.dev.mem = d.mem ∧
      (t.dev.part p).halted = true ∧ (∀ i q, i < 32 → (t.dev.slot i).queue = some q → (t.dev.queue q).part ≠ p) ∧
      ∀ k c, d.crews.get? k = some c → c.id.part = p →
        t.dev.crews.get? k = some { c with save := .full, saveAt := d.clock })) ∧
    (∀ p, (d.part p).halted = true → (∀ e ∈ d.crews, e.2.id.part ≠ p) →
      (∀ nk n l, d.nests = [(nk, n)] → n.part = p → n.ending = false → n.parent.map (·.1) ≠ some nk →
        areaPlaces d nk p (recField n.record 40 8) .write = some l → l.any (fun a => storeWaits d p a 16) = false →
        Answers (exec (.partitionPreempt p) s) (fun t => t.boot = s.boot ∧ t.dev.nests = [] ∧ ∃ e ∈ t.dev.savedNests, e.nest.record = n.record ∧ e.nest.points = n.points)) ∧
      ((∀ e ∈ d.savedNests, e.nest.part ≠ p) → exec (.partitionRestore p) s =
        .next { s with dev := d.setPart p { d.part p with halted := false, due := true } })) ∧
    (∀ (i : Nat) (a : Arr), d.arrs[i]? = some a →
      ((∀ m ∈ (d.pan a.cluster).mail, m.id ≠ a.id) → exec (.arrivalReturn i) s = .next { s with dev := { d with arrs := d.arrs.eraseIdx i } }) ∧
      (∀ m, (d.pan a.cluster).mail.find? (fun m => m.id == a.id) = some m →
        (m.fwd = none → m.counts.getD a.gate 0 < 2 ^ 32 - 1 → Answers (exec (.arrivalReturn i) s) (fun t => t.dev.mem = d.mem ∧
          t.dev.arrs = d.arrs.eraseIdx i ∧
          { m with counts := m.counts.set a.gate (m.counts.getD a.gate 0 + 1) } ∈ (t.dev.pan a.cluster).mail)) ∧
        (∀ ck c, m.fwd = some ck → d.crews.get? ck = some c → c.id = a.id → Answers (exec (.arrivalReturn i) s) (fun t =>
          t.dev.mem = d.mem ∧ t.dev.arrs = d.arrs.eraseIdx i ∧ t.dev.crews = d.crews.set ck (c.arrive a.gate)))))

/-! ### Answers to traps and faults -/

/-- R384 to R387, R391, R430: a warp whose RESUME record is written, with those of its later traps, goes on; the answer of the driver resumes the warp that its TSEQ names,
with s1 from TVAL for sysc, or ends its nest; a resolved fault record lets the waiting word be tried again, or makes it a protection trap; a
held trap record of an earlier clock goes to the ring when it lies in the partition's windows (R424), has room, and no line of the place keeps
the store, at the place of its write counter, with its number, and raises the error vector. The model's choices: the records of a clock are
written from the next clock on (log 106), and how a stopped warp's later trap is answered (log 84). -/
def Obligations.TrapsAndFaultsAreAnswered : Prop :=
  ∀ (s : State) (p : Nat), let d := s.dev
    (∀ k w x, d.warps.get? k = some w → w.stop = some x →
      (x.written = true → x.later = [] → x.cls = .routine ∨ x.cls = .dataErr → exec (.trapResume k) s = .next { s with dev := { d with
        warps := d.warps.set k { w with stop := none, ready := d.clock + 1, lready := d.clock + 1 } } }) ∧
      (x.written = false ∨ x.later ≠ [] → exec (.trapResume k) s = .next s)) ∧
    (∀ v : W64, let n := bits v 31 0
      (bits v 63 34 ≠ 0 → exec (.tansWrite p v) s = .next { s with dev := d.setPart p { d.part p with tans := v } }) ∧
      (∀ k w x, bits v 63 34 = 0 → d.warps.find? (fun e => awaits p d n e.2) = some (k, w) → d.warps.get? k = some w → w.stop = some x →
        (bits v 33 32 = 0 → Answers (exec (.tansWrite p v) s) (fun t => t.boot = s.boot ∧ t.dev.mem = d.mem ∧ t.dev.nests = d.nests ∧
          ∃ w', t.dev.warps = d.warps.set k w' ∧ w'.stop = (if x.later = [] then none else some { x with cls := .dataErr }) ∧ w'.spc = w.spc ∧
            (x.cls = .sysc → w'.s 1 = (d.part p).tval) ∧ (x.cls ≠ .sysc → w'.sregs = w.sregs) ∧ ∀ r, r ≠ 1 → w'.s r = w.s r)) ∧
        (∀ nest, bits v 33 32 = 1 → d.nests.get? (nestKey d w) = some nest → Answers (exec (.tansWrite p v) s) (fun t =>
          t.dev.mem = d.mem ∧ t.dev.warps = d.warps ∧ ∃ n', t.dev.nests.get? (nestKey d w) = some n' ∧ n'.ending = true)))) ∧
    (∀ (v : W64) r, (d.part p).open_.find? (fun r => r.fseq % 2 ^ 32 == bits v 31 0) = some r →
      (bit v 32 = false → Answers (exec (.fresWrite p v) s) (fun t => t.boot = s.boot ∧ t.dev.mem = d.mem ∧ (t.dev.part p).fres = v ∧
        (∀ e ∈ (t.dev.part p).open_, e.fseq ≠ r.fseq) ∧
        ∀ k w, d.warps.get? k = some w → d.partOf w = p → w.park = .records [r.fseq] → w.lpark = .run ∨ w.lpark = .again →
          t.dev.warps.get? k = some { w with park := .again, ready := d.clock, xs := [] })) ∧
      (bit v 32 = true → (d.warps.map (·.1)).Nodup → ∀ k w, d.warps.get? k = some w → d.partOf w = p → w.park = .records [r.fseq] →
        w.lpark = .run ∨ w.lpark = .again → w.stop = none → Answers (exec (.fresWrite p v) s) (fun t => t.boot = s.boot ∧
          (∃ w', t.dev.warps.get? k = some w' ∧ w'.stop.map (fun x => (x.cls, x.stream)) = some (.prot, .scalar) ∧ w'.spc = w.spc) ∧
          ∀ nest, d.nests.get? (nestKey d w) = some nest → ∃ n', t.dev.nests.get? (nestKey d w) = some n' ∧ n'.ending = true))) ∧
    (∀ (v : W64) (fault : Bool), (d.part p).heldF = [] → let x := if fault then { d.part p with frr := v } else { d.part p with trr := v }
      ((d.part p).heldT = [] → exec (.trrWrite p fault v) s = .next { s with dev := d.setPart p x }) ∧
      (∀ r n, (d.part p).heldT = [r] → ringSize x.tring = some n →
        let at_ := ringBase x.tring + 128 * (x.trw.toNat % n)
        let inside := inWindows d p (ringBase x.tring) (128 * n)
        (r.at_ < d.clock → x.trw.toNat - x.trr.toNat < n → inside = true → storeWaits d p at_ 128 = false →
          Answers (exec (.trrWrite p fault v) s) (fun t => t.boot = s.boot ∧ t.dev.mem = memWriteN d.mem at_ 128 (r.bytes x.tseq) ∧
          t.dev.part p = { x with heldT := [], trw := x.trw + 1, tseq := x.tseq + 1 } ∧
          t.dev.msix.getD (4 * p + 1) 0 = d.msix.getD (4 * p + 1) 0 + 1 ∧
          ∀ k w q, d.warps.get? k = some w → w.stop = some q →
            let told : Stop := if q.num = r.num then { q with tseq := some x.tseq, written := true } else { q with later := q.later.filter (· != r.num) }
            t.dev.warps.get? k = some { w with stop := some told })) ∧
        (d.clock ≤ r.at_ ∨ n ≤ x.trw.toNat - x.trr.toNat ∨ inside = false ∨ storeWaits d p at_ 128 = true →
          exec (.trrWrite p fault v) s = .next { s with dev := d.setPart p x })))

/-! ### Queues -/

/-- R375: a notify of an enabled queue moves TAIL, counts a stale one, or puts the queue in ERROR when it passes the ring. R377: a waiting hart
that reads a bad lap does the same. R378: a control block of the 1,024 queues is taken, enabling only with a ring of a legal size and alignment;
only an enabling write loads HEAD and TAIL, and one that does not enable takes the queue from its slot. R372: a completion signal is stored,
once its lines are free or its peer has acknowledged, and raises its vector. The model's choices: the notify table keeps HEAD and TAIL at a
write that does not enable (log 62), and an enabling write with packets waiting calls for a decision (log 93). -/
def Obligations.QueuesTakeNotifiesAndSignals : Prop :=
  ∀ (s : State) (q : Nat), bsMinimal s.boot = false → let d := s.dev
    let x := d.queue q
    (∀ v : W64, let t : BitVec 32 := v.setWidth 32
      let stale := t = x.tail ∨ 2 ^ 31 ≤ (t - x.tail).toNat
      (x.state ≠ 1 → exec (.notify q v) s = .next s) ∧
      (x.state = 1 → stale → exec (.notify q v) s = .next { s with dev := d.setQueue q { x with stale := (x.stale + 1) % 2 ^ 32 } }) ∧
      (x.state = 1 → ¬ stale → 2 ^ x.rlog < (t - x.head).toNat → Answers (exec (.notify q v) s) (fun s' => s'.boot = s.boot ∧
        s'.dev.mem = d.mem ∧ (s'.dev.queue q).state = 2 ∧ (s'.dev.queue q).err = 1 ∧ (s'.dev.queue q).tail = x.tail ∧
        s'.dev.msix.getD (4 * x.part + 1) 0 = d.msix.getD (4 * x.part + 1) 0 + 1)) ∧
      (x.state = 1 → ¬ stale → (t - x.head).toNat ≤ 2 ^ x.rlog →
        (∀ sl, slotOf d q = some sl → exec (.notify q v) s =
          .next { s with dev := (d.setQueue q { x with tail := t }).setSlot sl { d.slot sl with wfi := false } }) ∧
        (slotOf d q = none → Answers (exec (.notify q v) s) (fun s' => s'.boot = s.boot ∧ s'.dev.mem = d.mem ∧
          (s'.dev.queue q).tail = t ∧ (s'.dev.queue q).pending = (x.pending || true) ∧ (s'.dev.part x.part).due = true)))) ∧
    (∀ sl, (d.slot sl).queue = some q → x.state = 1 → x.fseq = none → (d.part x.part).halted = false → (d.part x.part).zeroing = false → x.mirror = false →
      let d1 := headFetch d sl x
      (x.pstep ≠ 0 ∨ x.head = x.tail → exec (.slotPoll sl) s = .next s) ∧
      (x.pstep = 0 → x.head ≠ x.tail →
        (∀ va, readHead d1 sl x = .miss va → exec (.slotPoll sl) s = .next { s with dev := addMiss d1 0 x.part va (.hart sl) }) ∧
        (∀ v b, readHead d1 sl x = .ok v b →
          (atHead x v ≠ .bad → exec (.slotPoll sl) s = .next { s with dev := dropAnswers d1 0 (.hart sl) }) ∧
          (atHead x v = .bad → Answers (exec (.slotPoll sl) s) (fun s' => s'.boot = s.boot ∧ s'.dev.mem = d.mem ∧
            (s'.dev.queue q).state = 2 ∧ (s'.dev.queue q).err = 2 ∧ (s'.dev.queue q).head = x.head))))) ∧
    (∀ b : List Byte, let y := blockQueue b
      let legal := 4 ≤ y.rlog ∧ y.rlog ≤ 16 ∧ y.ring % (64 * 2 ^ y.rlog) = 0
      (y.ring = ofBytes (b.take 8) ∧ y.hmir = ofBytes ((b.drop 8).take 8) ∧ y.rlog = ofBytes ((b.drop 24).take 1) ∧
        y.state = ofBytes ((b.drop 27).take 1) ∧ y.head.toNat = ofBytes ((b.drop 16).take 4) ∧ y.tail.toNat = ofBytes ((b.drop 20).take 4)) ∧
      (hostReady s.boot = false ∨ 1024 ≤ q → exec (.qcbWrite q b) s = .next s) ∧
      (hostReady s.boot = true → q < 1024 → y.state ≠ 1 →
        (slotOf d q = none → exec (.qcbWrite q b) s = .next { s with dev := d.setQueue q (x.block y) }) ∧
        (∀ sl, slotOf d q = some sl → Answers (exec (.qcbWrite q b) s) (fun s' => s'.boot = s.boot ∧ s'.dev.mem = d.mem ∧
          (s'.dev.slot sl).queue = none ∧ (s'.dev.queue q).state = y.state ∧ (s'.dev.queue q).ring = y.ring ∧
          (s'.dev.queue q).head = x.head ∧ (s'.dev.queue q).tail = x.tail))) ∧
      (hostReady s.boot = true → q < 1024 → y.state = 1 →
        (x.state = 1 → slotOf d q = none → legal →
          exec (.qcbWrite q b) s = .next { s with dev := d.setQueue q { x.block y with psince := x.psince } }) ∧
        (x.state ≠ 1 → ¬ legal → exec (.qcbWrite q b) s = .next { s with dev := d.setQueue q { x.block y with state := 0 } }) ∧
        (x.state ≠ 1 → legal → 2 ^ y.rlog < (y.tail - y.head).toNat → exec (.qcbWrite q b) s = .next s) ∧
        (x.state ≠ 1 → legal → (y.tail - y.head).toNat ≤ 2 ^ y.rlog → Answers (exec (.qcbWrite q b) s) (fun s' => s'.boot = s.boot ∧
          s'.dev.mem = d.mem ∧ (s'.dev.queue q).state = 1 ∧ (s'.dev.queue q).pending = (y.head != y.tail) ∧
          (s'.dev.queue q).ring = y.ring ∧ (s'.dev.queue q).head = y.head ∧ (s'.dev.queue q).tail = y.tail ∧
          (y.head ≠ y.tail → (s'.dev.part y.part).due = true) ∧ (y.head = y.tail → s'.dev.parts = d.parts))))) ∧
    (∀ (i : Nat) (g : Signal), d.signals[i]? = some g → g.queue = q → x.fseq = none →
      let told := fun (s' : State) => s'.dev.signals = d.signals.eraseIdx i ∧
        s'.dev.msix.getD (4 * x.part) 0 = d.msix.getD (4 * x.part) 0 + (if g.irq then 1 else 0)
      (g.saddr = 0 → Answers (exec (.completionSignal i) s) (fun s' => s'.boot = s.boot ∧ s'.dev.mem = d.mem ∧ told s')) ∧
      (∀ pa l, g.saddr ≠ 0 → g.saddr + 8 ≤ 2 ^ 48 → agentX d 0 [] (.hart (64 + q)) x.part g.saddr .write = .hit pa l →
        (g.store = none → isPeer pa = false → storeWaits d x.part pa 8 = false → Answers (exec (.completionSignal i) s) (fun s' =>
          s'.boot = s.boot ∧ s'.dev.mem = memWriteN d.mem pa 8 g.svalue.toNat ∧ told s')) ∧
        (g.store = none → isPeer pa = false → storeWaits d x.part pa 8 = true → Answers (exec (.completionSignal i) s) (fun s' =>
          s'.boot = s.boot ∧ s'.dev.mem = d.mem ∧ s'.dev.signals = d.signals ∧ s'.dev.msix = d.msix)) ∧
        (∀ op, g.store = some op → d.ops.get? op = none → Answers (exec (.completionSignal i) s) (fun s' =>
          s'.boot = s.boot ∧ s'.dev.mem = d.mem ∧ told s'))))

/-- R371 to R373: the hart of a mapped queue takes the packet at HEAD and frees its slot, HEAD's mirror getting the new value (here when the
places stored to are in the device's own memory and free to be stored to); a NOP only ends; a SIGNAL stores its value once no nest of the queue
is open; a WAIT ends when its condition holds and otherwise arms the slot's monitor and waits for it; a LAUNCH that is refused ends, one that
finds no slot or quota blocks until it is tried again, and a good one starts a nest, or completes it at once. A bad packet puts the queue in
ERROR. The model's choices: the nest takes the lowest free slot (log 44), and poisoned words of records and waits are used as read (log 61). -/
def Obligations.PacketsAreTakenInOrder : Prop :=
  ∀ (s : State) (sl q pa : Nat) (y : BitVec 512), bsMinimal s.boot = false → let d := s.dev
    let x := d.queue q
    let p := x.part
    (d.slot sl).queue = some q → (d.slot sl).fired = false → (d.slot sl).armed = false → (d.slot sl).wfi = false → x.state = 1 →
    x.fseq = none → x.between = true → (d.part p).halted = false → (d.part p).zeroing = false →
    let d0 := dropAnswers (headFetch d sl x) 0 (.hart sl)
    let stores := fun (e : Dev) (va n pa : Nat) => va + n ≤ 2 ^ 48 ∧ (∃ l, agentX e 0 [] (.hart sl) p va .write = .hit pa l) ∧
      isPeer pa = false ∧ storeWaits e p pa n = false
    let d1 := agentWriteN d0 p pa 4 (x.head + 1).toNat
    let taken := fun (s' : State) (step : Nat) => s'.boot = s.boot ∧ (s'.dev.queue q).head = x.head + 1 ∧ (s'.dev.queue q).tail = x.tail ∧
      (s'.dev.queue q).pstep = step ∧ (s'.dev.queue q).state = 1
    let irq := fun (s' : State) => s'.dev.msix.getD (4 * p) 0 = d.msix.getD (4 * p) 0 + (if pkIrq y then 1 else 0)
    (∀ hv hb, x.pstep = 0 → x.head ≠ x.tail → readHead (headFetch d sl x) sl x = .ok hv hb → atHead x hv = .packet y →
      stores d0 x.hmir 4 pa →
      (packetOk y = false → Answers (exec (.packetNop sl) s) (fun s' => s'.dev.mem = d1.mem ∧ (s'.dev.queue q).state = 2 ∧
        (s'.dev.queue q).err = 2 ∧ (s'.dev.queue q).head = x.head + 1)) ∧
      (packetOk y = true → pkType y = 0 → Answers (exec (.packetNop sl) s) (fun s' => taken s' 0 ∧ s'.dev.mem = d1.mem ∧ irq s')) ∧
      (packetOk y = true → pkType y = 3 →
        (∀ pb, x.open_ = 0 → stores d1 (pkAddr y) 8 pb → Answers (exec (.packetSignal sl) s) (fun s' => taken s' 0 ∧ irq s' ∧
          s'.dev.mem = memWriteN d1.mem pb 8 (pkValue y))) ∧
        (x.open_ ≠ 0 → Answers (exec (.packetSignal sl) s) (fun s' => taken s' 1 ∧ s'.dev.mem = d1.mem ∧ (s'.dev.queue q).pkt = y))) ∧
      (∀ v bad, packetOk y = true → pkType y = 2 → hartRead (hartFetch d1 sl p (pkAddr y) 8) sl p (pkAddr y) 8 = .ok v bad →
        (waitCond (pkSaddr y) v (pkValue y) = true → Answers (exec (.packetWait sl) s) (fun s' => taken s' 0 ∧ irq s' ∧
          s'.dev.mem = d1.mem)) ∧
        (waitCond (pkSaddr y) v (pkValue y) = false → Answers (exec (.packetWait sl) s) (fun s' => taken s' 2 ∧ s'.dev.mem = d1.mem ∧
          (s'.dev.slot sl).armed = true ∧ (s'.dev.slot sl).wfi = true ∧ (s'.dev.slot sl).wmaddr = pkAddr y ∧ (s'.dev.slot sl).wmcond = pkSaddr y ∧
          (s'.dev.slot sl).wmval = BitVec.ofNat 64 (pkValue y)))) ∧
      (∀ rv bad pc l, packetOk y = true → pkType y = 1 → pkSerial y = false ∨ x.open_ = 0 → pkValue y = 0 →
        let d2 := hartFetch d1 sl p (pkAddr y) 256
        hartReads d2 sl p (pkAddr y) 4 = .ok rv bad → agentX d2 0 [] (.hart sl) p (pkAddr y) .read = .hit pc l →
        let r : BitVec 2048 := BitVec.ofNat 2048 rv
        let die := (d.part p).firstSpan / 4
        let st := launchStatus d2 p die r [] l.w
        recField r 56 4 / 2 ^ 18 % 32 = 0 →
        (st % 256 = 6 ∨ st % 256 = 7 → Answers (exec (.packetLaunch sl) s) (fun s' => taken s' 3 ∧ s'.dev.mem = d1.mem ∧
          s'.dev.nests = d.nests ∧ (s'.dev.queue q).retry = false ∧ (s'.dev.queue q).pkt = y)) ∧
        (st ≠ 0 → st % 256 ≠ 6 → st % 256 ≠ 7 → Answers (exec (.packetLaunch sl) s) (fun s' => taken s' 0 ∧ irq s' ∧ s'.dev.mem = d1.mem ∧
          s'.dev.nests = d.nests)) ∧
        (∀ rake slot, st = 0 → rakeFor d die = some rake → (List.range 64).find? (fun i => (d.nests.get? (rake * 64 + i)).isNone) = some slot →
          crewsOf d (rake * 64 + slot) = [] → Answers (exec (.packetLaunch sl) s) (fun s' => s'.boot = s.boot ∧
            (s'.dev.queue q).head = x.head + 1 ∧ (s'.dev.queue q).pstep = 0 ∧
            (((s'.dev.queue q).open_ = x.open_ + 1 ∧ ∃ n, s'.dev.nests.get? (rake * 64 + slot) = some n ∧ n.record = r ∧
                n.launch = some (q, pkSaddr y, BitVec.ofNat 64 (pkSvalue y), pkIrq y) ∧ n.depth = 1 ∧ n.parent = none) ∨
              (s'.dev.nests.get? (rake * 64 + slot) = none ∧ (s'.dev.queue q).open_ = x.open_ ∧
                s'.dev.signals = d.signals ++ [⟨q, pkSaddr y, BitVec.ofNat 64 (pkSvalue y), pkIrq y, none⟩])))))) ∧
    (x.pstep = 3 → x.pkt = y → pkValue y = 0 →
      (x.retry = false → exec (.launchRetry sl) s = .next s) ∧
      let d2 := hartFetch d sl p (pkAddr y) 256
      (∀ rv bad pc l, x.retry = true → hartReads d2 sl p (pkAddr y) 4 = .ok rv bad →
        agentX d2 0 [] (.hart sl) p (pkAddr y) .read = .hit pc l →
        let r : BitVec 2048 := BitVec.ofNat 2048 rv
        let st := launchStatus d2 p ((d.part p).firstSpan / 4) r [] l.w
        recField r 56 4 / 2 ^ 18 % 32 = 0 →
        (st % 256 = 6 ∨ st % 256 = 7 → Answers (exec (.launchRetry sl) s) (fun s' => s'.dev.mem = d.mem ∧ s'.dev.nests = d.nests ∧
          s'.dev.queue q = { x with retry := false, blocked := true })) ∧
        (st ≠ 0 → st % 256 ≠ 6 → st % 256 ≠ 7 → Answers (exec (.launchRetry sl) s) (fun s' => s'.dev.mem = d.mem ∧ irq s' ∧
          (s'.dev.queue q).pstep = 0 ∧ (s'.dev.queue q).head = x.head))))

/-- R379 to R382: a decision maps a pending queue to the slot that R380 gives it and takes it off the pending ones; the tick, and a slot
that has been mapped for 200 µs, call for one; a slot gives up its queue for a pending one. A monitor that is armed watches its word: a store to
its line of device memory compares, a word elsewhere is polled, and it fires when the condition has been met, which ends the hart's wait. R438:
in minimal mode no hart but 35 takes a step. The model's choices: a decision takes the lowest free slot (log 59), a monitor compares when it is
armed and what it has met stays met (log 60), and the numbers of a monitor's registers (log 114). -/
def Obligations.SlotsAreScheduledAndWatched : Prop :=
  ∀ (s : State) (p : Nat), let d := s.dev
    (bsMinimal s.boot = true → ∀ n i (v : W64), ∀ e ∈ [Instr.packetNop n, .packetLaunch n, .packetWait n, .packetSignal n, .launchRetry n, .slotPoll n,
      .completionSignal n, .scheduleDecision n, .schedulerTick, .queueMapped200us n, .queueUnmap n, .waitMonitorArm n v, .waitMonitorFire n,
      .waitMonitorPoll n, .crewPreempt n, .tsaveExpiry n, .crewRestore n i, .nestPreempt n, .nestRestore n, .partitionPreempt n,
      .partitionRestore n], exec e s = .next s) ∧
    (bsMinimal s.boot = false →
    (∀ q x sl, (d.part p).halted = false → (d.part p).zeroing = false → d.queues.get? q = some x → (d.queues.map (·.1)).Pairwise (· < ·) →
      d.queues.filter (fun e => e.2.part == p && e.2.pending && e.2.state == 1) = [(q, x)] → victimSlot d p (pendingEp d x) = some sl →
      ((d.part p).due = true → (d.slot sl).queue = none → Answers (exec (.scheduleDecision p) s) (fun t => t.boot = s.boot ∧
        t.dev.mem = d.mem ∧ (t.dev.part p).due = false ∧ (t.dev.slot sl).queue = some q ∧ (t.dev.slot sl).mapped = d.clock ∧
        (t.dev.queue q).pending = false ∧ ∀ j, j ≠ sl → t.dev.slot j = d.slot j)) ∧
      (∀ old, (d.slot sl).queue = some old → (d.queue old).part = p → (d.part p).due = true → old ≠ q → (d.queue old).between = true →
        Answers (exec (.queueUnmap sl) s) (fun t => t.boot = s.boot ∧ t.dev.mem = d.mem ∧ (t.dev.slot sl).queue = some q ∧
          (t.dev.queue q).pending = false ∧
          ((d.queue old).state = 1 → (d.queue old).idle = false → (t.dev.queue old).pending = true ∧ (t.dev.queue old).psince = nowNs d)))) ∧
    ((d.part p).due = false → exec (.scheduleDecision p) s = .next s) ∧
    (d.clock / 30000 ≤ d.tick → exec .schedulerTick s = .next s) ∧
    (d.tick < d.clock / 30000 → Answers (exec .schedulerTick s) (fun t => t.boot = s.boot ∧ t.dev.mem = d.mem ∧
      t.dev.tick = d.clock / 30000 ∧ ((∀ e ∈ d.queues, e.2.between = true ∧ e.2.pstep = 0) → ∀ i, i < 16 → (t.dev.part i).due = false))) ∧
    (∀ sl q, (d.slot sl).queue = some q →
      (d.clock < (d.slot sl).mapped + 120000 → exec (.queueMapped200us sl) s = .next s) ∧
      ((d.slot sl).mapped + 120000 ≤ d.clock → (d.slot sl).seen200 = false →
        (∀ e ∈ d.queues, e.2.part = (d.queue q).part → e.2.pending = false) → Answers (exec (.queueMapped200us sl) s) (fun t =>
          t.dev.mem = d.mem ∧ t.dev.slot sl = { d.slot sl with seen200 := true })) ∧
      ((d.part (d.queue q).part).due = false → exec (.queueUnmap sl) s = .next s) ∧
      let m := d.slot sl
      let meets := fun (pa : Nat) (c : Nat) => waitCond c (devReadN d pa 8) m.wmval.toNat
      let fires := fun (i : Instr) => Answers (exec i s) (fun t => t.boot = s.boot ∧ t.dev.mem = d.mem ∧
        (t.dev.slot sl).fired = true ∧ (t.dev.slot sl).armed = false ∧ (t.dev.slot sl).wfi = false ∧ (t.dev.slot sl).queue = some q)
      (m.armed = false → exec (.waitMonitorFire sl) s = .next s ∧ exec (.waitMonitorPoll sl) s = .next s) ∧
      (∀ a, m.armed = true → m.wmpa = some a → exec (.waitMonitorPoll sl) s = .next s ∧
        (m.met = true → fires (.waitMonitorFire sl)) ∧ (m.met = false → exec (.waitMonitorFire sl) s = .next s)) ∧
      (∀ v : W64, sl < 32 →
        exec (.waitMonitorArm (32 + sl) v) s = .next { s with dev := d.setSlot sl { m with wmaddr := v.toNat } } ∧
        exec (.waitMonitorArm (64 + sl) v) s = .next { s with dev := d.setSlot sl { m with wmval := v } }) ∧
      (∀ (cond : W64) pa l, agentX d 0 [] (.hart sl) (d.queue q).part m.wmaddr .read = .hit pa l →
        (sl < 32 → Answers (exec (.waitMonitorArm sl cond) s) (fun t => t.boot = s.boot ∧ t.dev.mem = d.mem ∧ (t.dev.slot sl).armed = true ∧
          (t.dev.slot sl).fired = false ∧ (t.dev.slot sl).wmcond = bits cond 7 0 ∧ (t.dev.slot sl).queue = some q ∧
          (isHbm pa = true → (t.dev.slot sl).wmpa = some pa ∧ (t.dev.slot sl).met = meets pa (bits cond 7 0) ∧
            ∃ pan, (pa / 64, sl) ∈ (t.dev.pan pan).watches))) ∧
        (m.armed = true → m.wmpa = none → isHbm pa = false →
          (meets pa m.wmcond = true → fires (.waitMonitorPoll sl)) ∧
          (meets pa m.wmcond = false → exec (.waitMonitorPoll sl) s = .next { s with dev := dropAnswers d 0 (.hart sl) }))) ∧
      (∀ y pw n v a, d.slots.get? sl = some y → y.wmpa = some a → a / 64 * 64 < pw + n → pw / 64 * 64 ≤ a →
        let d' := devWriteN d pw n v
        waitCond y.wmcond (devReadN d' a 8) y.wmval.toNat = true → (d'.slot sl).met = true)))

/-! ### The host -/

/-- R425 to R427, R433: a control register of a partition is refused for each reason of R425, its sums over the partitions among them, with REJ
the only change, or taken, and enabling starts the routine map anew (R133); disabling ends the partition's nests, its queues standing still,
and starts zeroing, as a function-level reset does for every partition; zeroing disables the queues and leaves memory, lines, translations,
routines, groups and the images of contexts of no use to a later tenant. A window register is refused or taken. The model's choices: what is
refused while a partition is being zeroed, and enabling over a window of another (log 70), REJ for a window (log 71), and PTBASE cleared at the
end of zeroing (log 94). -/
def Obligations.PartitionsAreSetUpAndZeroed : Prop :=
  ∀ (s : State) (p : Nat), let d := s.dev
    let x := d.part p
    let rej : Host.Outcome State Fault Refusal := .next { s with dev := d.setPart p { x with pctl := x.pctl ||| 2#64 } }
    let taken := fun (v : W64) => ∃ e ∈ d.parts, e.1 ≠ p ∧ (e.2.enabled = true ∨ e.2.zeroing = true) ∧ ∃ w ∈ e.2.pwin, bit w.2 0 = true ∧
      ∃ a, isHbm a = true ∧ pwinBase v ≤ a ∧ a < pwinBase v + pwinSize v ∧ pwinBase w.2 ≤ a ∧ a < pwinBase w.2 + pwinSize w.2
    let ended := fun (t : State) (r : Nat) =>
      (t.dev.part r).zeroing = true ∧ (t.dev.part r).halted = false ∧ bit (t.dev.part r).pctl 0 = false ∧ t.dev.queues = d.queues ∧
      (∀ sl q, (d.slot sl).queue = some q → (d.queue q).part = r → exec (.packetLaunch sl) t = .next t) ∧
      (∀ nk n, d.nests.get? nk = some n → n.part = r → ∃ n', t.dev.nests.get? nk = some n' ∧ n'.ending = true)
    (∀ v : W64, let first := bits v 5 2
      let span := bits v 8 6
      let total := fun (counts : W64 → Bool) (f : W64 → Nat) => ((List.range 16).map (fun r =>
        let y := if r = p then v else (d.part r).pctl
        if counts y then f y else 0)).sum
      let overlaps := fun (r : Nat) => first < bits (d.part r).pctl 5 2 + 2 ^ bits (d.part r).pctl 8 6 ∧ bits (d.part r).pctl 5 2 < first + 2 ^ span
      (hostReady s.boot = false ∨ 16 ≤ p → exec (.pctlWrite p v) s = .next s) ∧
      (hostReady s.boot = true → p < 16 →
        (4 < span → exec (.pctlWrite p v) s = rej) ∧ (first % 2 ^ span ≠ 0 → exec (.pctlWrite p v) s = rej) ∧
        (bits v 15 9 ≠ 0 ∨ bits v 47 38 ≠ 0 ∨ 1000 < bits v 63 48 → exec (.pctlWrite p v) s = rej) ∧
        (∀ r, r < 16 → r ≠ p → (d.part r).enabled = true ∨ (d.part r).zeroing = true → overlaps r → exec (.pctlWrite p v) s = rej) ∧
        (32 < total (fun _ => true) (fun y => bits y 37 32) → exec (.pctlWrite p v) s = rej) ∧
        (224 < total (fun _ => true) (fun y => bits y 23 16) → exec (.pctlWrite p v) s = rej) ∧
        (256 < total (fun y => bit y 0) (fun y => bits y 31 24) → exec (.pctlWrite p v) s = rej) ∧
        (bit x.pctl 0 = true ∨ x.zeroing = true → bits x.pctl 47 2 ≠ bits v 47 2 → exec (.pctlWrite p v) s = rej) ∧
        (bit x.pctl 0 = false → bit v 0 = true → x.zeroing = true → exec (.pctlWrite p v) s = rej) ∧
        (bit x.pctl 0 = false → bit v 0 = true → (∃ w ∈ x.pwin, bit w.2 0 = true ∧ taken w.2) → exec (.pctlWrite p v) s = rej) ∧
        (span ≤ 4 → first % 2 ^ span = 0 → bits v 15 9 = 0 → bits v 47 38 = 0 → bits v 63 48 ≤ 1000 →
          (∀ r, r < 16 → r ≠ p → (d.part r).enabled = true ∨ (d.part r).zeroing = true → ¬ overlaps r) →
          total (fun _ => true) (fun y => bits y 37 32) ≤ 32 → total (fun _ => true) (fun y => bits y 23 16) ≤ 224 →
          total (fun y => bit y 0) (fun y => bits y 31 24) ≤ 256 →
          (bit x.pctl 0 = true ∨ x.zeroing = true → bits x.pctl 47 2 = bits v 47 2) →
          (bit x.pctl 0 = false → bit v 0 = true → x.zeroing = false → (∀ w ∈ x.pwin, bit w.2 0 = true → ¬ taken w.2) →
            Answers (exec (.pctlWrite p v) s) (fun t => t.boot = s.boot ∧ t.dev.mem = d.mem ∧
              t.dev.part p = { x with pctl := v &&& ~~~ 2#64, started := d.clock, rmap := [], code := [] } ∧
              ∀ i, 16 * first ≤ i → i < 16 * first + 16 * 2 ^ span → (t.dev.pan i).rmap = [] ∧ (t.dev.cluster i).rmap = [])) ∧
          (bit v 0 = bit x.pctl 0 → exec (.pctlWrite p v) s = .next { s with dev := d.setPart p { x with pctl := v &&& ~~~ 2#64 } }) ∧
          (bit v 0 = false → bit x.pctl 0 = true → Answers (exec (.pctlWrite p v) s) (fun t => t.boot = s.boot ∧ t.dev.mem = d.mem ∧
            (t.dev.part p).pctl = v &&& ~~~ 2#64 ∧ ended t p))))) ∧
    (∀ (i : Nat) (v : W64), let lo := pwinBase v
      let hi := pwinBase v + pwinSize v
      (8 ≤ i ∨ 16 ≤ p → exec (.pwinWrite p i v) s = .next s) ∧
      (i < 8 → p < 16 → bits v 63 52 ≠ 0 ∨ x.zeroing = true ∨ (bit v 0 = true ∧ (bits v 29 13 = 0 ∨ 2 ^ 52 < hi ∨ (lo < 2 ^ 41 ∧ 2 ^ 40 < hi) ∨
        taken v)) → exec (.pwinWrite p i v) s = rej) ∧
      (i < 8 → p < 16 → bits v 63 52 = 0 → x.zeroing = false →
        (bit v 0 = true → bits v 29 13 ≠ 0 ∧ hi ≤ 2 ^ 52 ∧ (2 ^ 41 ≤ lo ∨ hi ≤ 2 ^ 40) ∧ ¬ taken v) → exec (.pwinWrite p i v) s =
        .next { s with dev := d.setPart p { x with pwin := x.pwin.set i v, pctl := x.pctl &&& ~~~ 2#64 } })) ∧
    (x.zeroing = false → exec (.zeroingComplete p) s = .next s) ∧
    (x.zeroing = true → (∃ e ∈ d.nests, e.2.part = p) → exec (.zeroingComplete p) s = .next s) ∧
    (x.zeroing = true → (∀ e ∈ d.nests, e.2.part ≠ p) → (∀ e ∈ d.savedNests, e.nest.part ≠ p) →
      Answers (exec (.zeroingComplete p) s) (fun t => t.boot = s.boot ∧
        (∀ a, memRead t.dev.mem a = if ownHbm d p a then 0 else memRead d.mem a) ∧
        t.dev.part p = { x with zeroing := false, ptbase := 0, rmap := [], code := [], groups := [], spill := [] } ∧
        (∀ q y, d.queues.get? q = some y → y.part = p → (t.dev.queue q).state = 0 ∧ (t.dev.queue q).pending = false) ∧
        (∀ sl q, sl < 32 → (d.slot sl).queue = some q → (d.queue q).part = p → (t.dev.slot sl).queue = none) ∧
        (∀ i, x.basePan ≤ i → i < x.basePan + x.pans → (t.dev.pan i).images = [] ∧ (t.dev.pan i).records = [] ∧ (t.dev.pan i).rmap = [] ∧
          (t.dev.cluster i).rmap = []) ∧
        (∀ i, (∀ e ∈ (t.dev.die i).tlb, e.part ≠ p) ∧ (∀ e ∈ (t.dev.die i).ptrs, e.part ≠ p) ∧ (∀ e ∈ (t.dev.die i).answers, e.part ≠ p) ∧
          (∀ e ∈ (t.dev.cluster i).tlb, e.part ≠ p) ∧ (∀ e ∈ (t.dev.engine i).tlb, e.part ≠ p) ∧
          (∀ e ∈ (t.dev.pan i).lines, ownHbm d p (e.1 * 64) = false)))) ∧
    Answers (exec .functionLevelReset s) (fun t => t.boot = { s.boot with featctl := 0 } ∧ t.dev.mem = d.mem ∧
      ∀ r, r < 16 → (if (d.part r).enabled then ended t r else t.dev.part r = d.part r))

/-- R374, R428 to R432, R436, R438: the aperture reads and writes populated HBM, in a partition's window at the pan of the line, and raises the
device vector elsewhere; in minimal mode it reads 0 and writes nothing. A register write goes where the map of BAR 0 puts it, a read of 8
aligned bytes answers what stands there and any other size 0. FEATCTL's GO agrees on features only when no required one is refused. The
model's choices: the overlap at 0x100000 (log 28), which accesses of the host wait (log 77), FEATCTL bits that GO leaves set (log 78), and
that a write of a register with a step of its own stores nothing (log 79). -/
def Obligations.TheHostReachesMemoryAndRegisters : Prop :=
  ∀ (s : State), let d := s.dev
    let reads := fun (a : Nat) => registerRead s.boot d a 8
    (∀ a n, bit s.boot.bootstat 0 = true → exec (.apertureAccess (.read a n)) s = .next { s with dev := { d with hostData := some 0 } }) ∧
    (∀ a l, bit s.boot.bootstat 0 = true → exec (.apertureAccess (.write a l)) s = .next s) ∧
    (bit s.boot.bootstat 0 = false →
      (∀ a n, ((∃ l ∈ linesOf a n, isHbm (l * 64) = false) →
          exec (.apertureAccess (.read a n)) s = .next { s with dev := { d.raise 64 with hostData := none } }) ∧
        ((∀ l ∈ linesOf a n, isHbm (l * 64) = true) → (lineParts a n).any (hostWaits d true) = true →
          exec (.apertureAccess (.read a n)) s = .next s) ∧
        ((∀ l ∈ linesOf a n, isHbm (l * 64) = true) → (lineParts a n).any (hostWaits d true) = false →
          Answers (exec (.apertureAccess (.read a n)) s) (fun t => t.boot = s.boot ∧ t.dev.mem = d.mem ∧ t.dev.msix = d.msix ∧
            t.dev.hostData = some (devReadN d a n) ∧
            ∀ l p, linesOf a n = [l] → lineOwner d l = some p → currentPan d p l = panOf d p l →
              (∀ e, (d.pan (panOf d p l)).line l = some e →
                (t.dev.pan (panOf d p l)).line l = some { e with valid := 15, used := d.clock }) ∧
              (∀ d1, allocate (readSectors d l 15) (panOf d p l) l 0 = some d1 → (d.pan (panOf d p l)).line l = none →
                ∃ e, (t.dev.pan (panOf d p l)).line l = some e ∧ e.valid = 15)))) ∧
      (∀ a l, (lineParts a l.length).any (hostWaits d false) = false → Memory.wf d.mem = true →
        (∀ x ∈ linesOf a l.length, isHbm (x * 64) = true) →
        Answers (exec (.apertureAccess (.write a l)) s) (fun t => t.boot = s.boot ∧ Memory.wf t.dev.mem = true ∧
          (∀ x, memRead t.dev.mem x = if a ≤ x ∧ x < a + l.length then l.getD (x - a) 0 else memRead d.mem x) ∧
          ∀ n p, linesOf a l.length = [n] → lineOwner d n = some p → currentPan d p n = panOf d p n →
            allocate d (panOf d p n) n 0 ≠ none → ∃ e, (t.dev.pan (panOf d p n)).line n = some e ∧
              ∀ i, i < 4 → n * 64 + 16 * i < a + l.length → a < n * 64 + 16 * i + 16 → e.valid.getLsbD i = true ∧ e.dirty.getLsbD i = true)) ∧
      (∀ a l, (lineParts a l.length).any (hostWaits d false) = true →
        Answers (exec (.apertureAccess (.write a l)) s) (fun t => t.boot = s.boot ∧ t.dev.mem = d.mem)) ∧
      (∀ a l, linesOf a l.length = [a / 64] → isHbm (a / 64 * 64) = false →
        exec (.apertureAccess (.write a l)) s = .next { s with dev := d.raise 64 })) ∧
    ((∀ a n, n ≠ 8 ∨ a % 8 ≠ 0 → registerRead s.boot d a n = 0) ∧
      bits (reads 0) 31 16 = 0x5934 ∧ (bits (reads 0) 7 0 = 1 ∨ bits (reads 0) 7 0 = 2) ∧
      reads 8 = s.boot.bootstat ∧ reads 0x10 = 0x1F ∧ reads 0x18 = 0 ∧ reads 0x30 = s.boot.featctl ∧
      reads 0x20 = s.boot.featacc.extractLsb' 0 64 ∧ reads 0x28 = s.boot.featacc.extractLsb' 64 64 ∧
      (∀ i j, i < 8 → j < 8 → reads (0x100 + 64 * i + 8 * j) = (s.boot.meas.getD i 0).extractLsb' (64 * j) 64) ∧
      (∀ p, p < 16 → bit s.boot.bootstat 0 = false → let page := 0x100000 + 0x1000 * p
        reads page = (d.part p).tans ∧ reads (page + 0x08) = (d.part p).tval ∧ reads (page + 0x10) = (d.part p).fres ∧
        reads (page + 0x18) = (d.part p).tring ∧ reads (page + 0x20) = (d.part p).fring ∧ reads (page + 0x28) = (d.part p).trw ∧
        reads (page + 0x30) = (d.part p).frw ∧ reads (page + 0x38) = (d.part p).trr ∧ reads (page + 0x40) = (d.part p).frr ∧
        reads (page + 0x48) = (d.part p).xinva ∧ reads (page + 0x50) = (d.part p).xinvc) ∧
      (∀ p, p < 16 → reads (0x300000 + 0x1000 * p) = (d.part p).pctl) ∧
      (∀ q, notifyRead s.boot d q = if bit s.boot.bootstat 0 = true then 0 else (d.queue q).tail.setWidth 64)) ∧
    (∀ (a : Nat) (v : W64),
      (a % 8 ≠ 0 → exec (.registerWrite a v) s = .next s) ∧
      Answers (exec (.registerWrite 0x20 v) s) (fun t => t.dev = d ∧ t.boot = { s.boot with featacc := t.boot.featacc } ∧
        t.boot.featacc.extractLsb' 0 64 = v ∧ t.boot.featacc.extractLsb' 64 64 = s.boot.featacc.extractLsb' 64 64) ∧
      Answers (exec (.registerWrite 0x28 v) s) (fun t => t.dev = d ∧ t.boot = { s.boot with featacc := t.boot.featacc } ∧
        t.boot.featacc.extractLsb' 64 64 = v ∧ t.boot.featacc.extractLsb' 0 64 = s.boot.featacc.extractLsb' 0 64) ∧
      (a % 8 = 0 → 0x10000 ≤ a → a < 0x100000 → Memory.wf s.boot.recovery = true → Answers (exec (.registerWrite a v) s) (fun t => t.dev = d ∧
        t.boot = { s.boot with recovery := t.boot.recovery } ∧ memReadN t.boot.recovery (a - 0x10000) 8 = v.toNat ∧
        ∀ x, x < a - 0x10000 ∨ a - 0x10000 + 8 ≤ x → memRead t.boot.recovery x = memRead s.boot.recovery x)) ∧
      (∀ p, p < 16 → bit s.boot.bootstat 0 = false → let base := 0x100000 + 0x1000 * p
        exec (.registerWrite (base + 8) v) s = .next { s with dev := d.setPart p { d.part p with tval := v } } ∧
        exec (.registerWrite (base + 0x48) v) s = .next { s with dev := d.setPart p { d.part p with xinva := v } } ∧
        ((d.part p).heldT = [] → (d.part p).heldF = [] →
          exec (.registerWrite (base + 0x18) v) s = .next { s with dev := d.setPart p { d.part p with tring := v } } ∧
          exec (.registerWrite (base + 0x20) v) s = .next { s with dev := d.setPart p { d.part p with fring := v } }) ∧
        ∀ off, off < 0x1000 → off ≠ 8 → off ≠ 0x48 → off ≠ 0x18 → off ≠ 0x20 → exec (.registerWrite (base + off) v) s = .next s) ∧
      (∀ k, k < 12 → let base := 0x10000001000 + 0x40 * k
        exec (.registerWrite base v) s = .next { s with boot := { s.boot with h15ir := s.boot.h15ir.set k v } } ∧
        exec (.registerWrite (base + 8) v) s = .next { s with boot := { s.boot with h15dr := s.boot.h15dr.set k v } } ∧
        exec (.registerWrite (base + 16) v) s = .next s) ∧
      (a % 8 = 0 → 0x10000010000 ≤ a → a < 0x10000100000 → exec (.registerWrite a v) s = .next { s with dev := { d with regs := d.regs.set a v } })) ∧
    exec .featctlGo s = .next { s with boot := { s.boot with
      featctl := s.boot.featctl ||| 1#64 ||| (if s.boot.featacc.extractLsb' 5 123 = 0 then 2#64 else 4#64) } }

/-! ### The start -/

/-- R434 to R438, R440, R441: a start counts itself, measures the ROM and a good bundle and waits for firmware; a bundle that fails ends it with
its reason, flash that fails with reason 8, and after three failures in a row the next start is in minimal mode. Firmware ends the start in
time or fails it; late rails and failing or late stacks fail it with their unit, and the device vector is raised. A failed start leaves 1 in
`start`, from which the next begins. In minimal mode a good bundle of the recovery window is taken. The model's choices: what a start resets
and keeps (log 72), when a late rail or stack is noticed (log 74), the bytes measured (log 9), what training passes on (log 75), flash as a
free value of each start (log 92) and the events that raise vector 64 (log 118). -/
def Obligations.StartsAreMeasuredAndBounded : Prop :=
  ∀ (s : State), let b := s.boot
    let d := s.dev
    let fresh := fun (k : Nat) => ({ Dev.reset with
      clock := d.clock, free := d.free + 2, msix := if k = 0 then Dev.reset.msix else Dev.reset.msix.set 64 k } : Dev)
    let failed := fun (t : State) (k reason fsc : Nat) => t.dev = fresh (k + 1) ∧ t.boot.start = 1 ∧ t.boot.fsc = fsc ∧
      bsReason t.boot = reason ∧ bsUnit t.boot = 0 ∧ bit t.boot.bootstat 0 = false ∧ t.boot.pwrctl = 0 ∧ t.boot.pwrstat = 0
    -- a start with a failed-start count, a bundle, and the reason and unit of the last failure, after k power or boot events
    let begins := fun (i : Instr) (fsc bundle reason unit k : Nat) => Answers (exec i s) (fun t => t.turns = s.turns ∧
      t.boot.bundle = bundle ∧ t.boot.recovery = b.recovery ∧ t.boot.featctl = 0 ∧ t.boot.throttle = 0 ∧
      bit t.boot.bootstat 16 = false ∧ bits t.boot.bootstat 3 1 = t.boot.fsc % 8 ∧
      (Config.flashFails d.free = true → failed t k 8 fsc) ∧
      (Config.flashFails d.free = false → 3 ≤ fsc → t.dev = fresh k ∧ t.boot.start = 0 ∧ t.boot.fsc = fsc ∧ bit t.boot.bootstat 0 = true ∧
        bsReason t.boot = reason ∧ bsUnit t.boot = unit ∧ t.boot.pwrctl = 3 ∧ t.boot.pwrstat = 3 ∧ t.boot.meas = []) ∧
      (Config.flashFails d.free = false → fsc < 3 →
        if Config.flashFails (d.free + 1) = true then failed t k 8 fsc
        else t.boot.meas.getD 0 0 = extendMeas 0 Config.romDigest ∧ t.boot.meas.getD 3 0 = 0 ∧ match bundleFails bundle with
          | some r => failed t k r (fsc + 1) ∧ 1 ≤ r ∧ r ≤ 4
          | none => t.dev = fresh k ∧ t.boot.start = 10 ∧ t.boot.startAt = d.clock ∧ t.boot.fsc = fsc + 1 ∧
            bsReason t.boot = reason ∧ bsUnit t.boot = unit ∧ bit t.boot.bootstat 0 = false ∧
            t.boot.meas.getD 1 0 = extendMeas 0 (Config.bundleHeader bundle) ∧
            t.boot.meas.getD 2 0 = (Config.bundleComponents bundle).foldl extendMeas 0 ∧ t.boot.pwrctl = 0 ∧ t.boot.pwrstat = 0))
    let fails := fun (i : Instr) (reason unit : Nat) => begins i b.fsc b.bundle reason unit 1
    begins .powerOn b.fsc b.bundle (bsReason b) (bsUnit b) 0 ∧
    (b.start ≠ 1 → startAgain b d = (b, d)) ∧
    (b.start = 1 → exec .powerOn s = .next { s with boot := (startAgain b d).1, dev := (startAgain b d).2 }) ∧
    (bit b.bootstat 0 = false → exec .featctlReload s = .next s) ∧
    (bit b.bootstat 0 = true → let n := memReadN b.recovery 0 1048576
      match bundleFails n with
        | none => begins .featctlReload 0 n (bsReason b) (bsUnit b) 0
        | some r => Answers (exec .featctlReload s) (fun t => t.dev = d ∧ t.boot = { b with bootstat := t.boot.bootstat } ∧
          bsReason t.boot = r ∧ bit t.boot.bootstat 0 = true)) ∧
    (b.start ≠ 10 → exec .fwtimeout s = .next s ∧ exec .bootok s = .next s) ∧
    (b.start = 10 → lateRail b d.clock = none → lateStack b d.clock = none →
      (d.clock < b.startAt + 1200000000 → exec .fwtimeout s = .next s) ∧
      (b.startAt + 1200000000 ≤ d.clock → fails .fwtimeout 7 0)) ∧
    (∀ k, b.start = 10 → lateRail b d.clock = none → lateStack b d.clock = some k → fails .fwtimeout 6 k) ∧
    (∀ r, b.start = 10 → lateRail b d.clock = some r → fails .fwtimeout 5 r) ∧
    (b.start = 10 → bits b.pwrstat 10 0 = 0x7FF → (∀ k, k < 12 → b.trained.getD k 0 = 6) →
      (b.startAt + 1200000000 ≤ d.clock → exec .bootok s = .next s) ∧
      (d.clock < b.startAt + 1200000000 →
        Answers (exec .bootok s) (fun t => t.dev = d.raise 64 ∧ t.boot = { b with start := 12, fsc := 0, bootstat := t.boot.bootstat } ∧
          bit t.boot.bootstat 16 = true ∧ bits t.boot.bootstat 3 1 = 0 ∧ bit t.boot.bootstat 0 = false))) ∧
    (∀ k v, (12 ≤ k → exec (.h15goStart k) s = .next s) ∧
      (bsMinimal b = true → exec (.h15goStart k) s = .next s) ∧
      (k < 12 → bsMinimal b = false → exec (.h15goStart k) s =
        .next { s with boot := { b with h15go := b.h15go.set k 1, h15At := b.h15At.set k d.clock } }) ∧
      (b.h15go.getD k 0 ≠ 1 → exec (.h15goDone k v) s = .next s) ∧
      (b.h15go.getD k 0 = 1 → let b1 : Boot := { b with h15go := b.h15go.set k 0, h15dr := b.h15dr.set k v }
        let t := b.trained.getD k 0
        let passes := Config.trainPass k (t + 1) v && decide (d.clock ≤ b.h15At.getD k 0 + trainLimit (t + 1))
        (b.start ≠ 10 ∨ 6 ≤ t → exec (.h15goDone k v) s = .next { s with boot := b1 }) ∧
        (b.start = 10 → t < 6 → (∃ j, j < 12 ∧ j ≠ k ∧ b.trained.getD j 0 < 6) → exec (.h15goDone k v) s =
          .next { s with boot := { b1 with trained := b.trained.set k (if passes = true then t + 1 else 101 + t) } }) ∧
        (b.start = 10 → k < 12 → t < 6 → (∀ j, j < 12 → j ≠ k → b.trained.getD j 0 = 6) →
          if passes = false then fails (.h15goDone k v) 6 k
          else if t < 5 then exec (.h15goDone k v) s = .next { s with boot := { b1 with trained := b.trained.set k (t + 1) } }
          else Answers (exec (.h15goDone k v) s) (fun s' => s'.dev = d ∧ s'.boot = { b1 with trained := b.trained.set k 6, meas := s'.boot.meas } ∧
            s'.boot.meas.getD 3 0 = (List.range 12).foldl (fun m i => extendMeas m (Config.trainingBytes d.free i)) (b.meas.getD 3 0)))))

/-- R439, R440, R412 and R435: a power sample moves the throttle by at most one step of sixteen; PWRCTL switches rails on in the order of the
table, each once those before are good and the last 200 µs after the one before it, and off in the reverse order 1 ms apart; the hart that
does both stands still in minimal mode (R438). A rail that is enabled becomes good, too late only outside a start, and the power sequence is
measured when the last one does. CWSELF is refused when it is invalid or a port is up, and measured when it is set. The model's choices: the
bytes measured and their order (log 9), when MEAS4 is extended (log 76), that no other write of PWRCTL is made (log 117), and which power
events raise vector 64 (log 118). -/
def Obligations.PowerAndIdentityAreSet : Prop :=
  ∀ (s : State), let b := s.boot
    let d := s.dev
    (∀ m, bsMinimal b = true → exec (.powerSample m) s = .next s) ∧
    (∀ m, bsMinimal b = false → let new := if Config.powerLimit Config.formM < m then Nat.min 15 (b.throttle + 1)
        else if m * 100 < Config.powerLimit Config.formM * 95 then b.throttle - 1 else b.throttle
      exec (.powerSample m) s = .next { s with boot := { b with throttle := new }, dev := if new = b.throttle then d else d.raise 64 }) ∧
    (∀ v : W64, bsMinimal b = true → exec (.pwrctlWrite v) s = .next s) ∧
    (∀ m n, bsMinimal b = false → m ≤ 11 → n ≤ 11 → b.pwrctl = BitVec.ofNat 64 (2 ^ m - 1) → let v := BitVec.ofNat 64 (2 ^ n - 1)
      (n = m + 1 → b.pwrstat = b.pwrctl → (m = 10 → b.railAt.getD 9 0 + 120000 ≤ d.clock) →
        exec (.pwrctlWrite v) s = .next { s with boot := { b with pwrctl := v, railAt := b.railAt.set m d.clock } }) ∧
      (n + 1 = m → (∀ t, b.offAt = some t → t + 600000 ≤ d.clock) → exec (.pwrctlWrite v) s =
        .next { s with boot := { b with pwrctl := v, pwrstat := b.pwrstat &&& v, offAt := some d.clock } }) ∧
      (n = m + 1 → b.pwrstat ≠ b.pwrctl ∨ (m = 10 ∧ d.clock < b.railAt.getD 9 0 + 120000) → exec (.pwrctlWrite v) s = .next s) ∧
      (∀ t, n + 1 = m → b.offAt = some t → d.clock < t + 600000 → exec (.pwrctlWrite v) s = .next s) ∧
      (n ≠ m + 1 → n + 1 ≠ m → exec (.pwrctlWrite v) s = .next s)) ∧
    (∀ v : W64, (∀ n, n ≤ 11 → v ≠ BitVec.ofNat 64 (2 ^ n - 1)) ∨ (∀ n, n ≤ 11 → b.pwrctl ≠ BitVec.ofNat 64 (2 ^ n - 1)) → exec (.pwrctlWrite v) s = .next s) ∧
    (∀ r, (11 ≤ r ∨ bit b.pwrctl r = false ∨ bit b.pwrstat r = true → exec (.railGood r) s = .next s) ∧
      (r < 11 → bit b.pwrctl r = true → bit b.pwrstat r = false → (b.start ≠ 10 ∨ d.clock ≤ b.railAt.getD r 0 + railLimit r) →
        Answers (exec (.railGood r) s) (fun t => t.dev = d.raise 64 ∧
          t.boot = { b with pwrstat := t.boot.pwrstat, railAt := b.railAt.set r d.clock, meas := t.boot.meas } ∧
          (∀ j, bit t.boot.pwrstat j = (bit b.pwrstat j || j == r)) ∧
          (t.boot.meas = if b.start = 10 ∧ (List.range 11).all (fun j => j == r || bit b.pwrstat j) = true
            then b.meas.set 4 (extendMeas (b.meas.getD 4 0) Config.powerBytes) else b.meas))) ∧
      (r < 11 → bit b.pwrctl r = true → bit b.pwrstat r = false → b.start = 10 → b.railAt.getD r 0 + railLimit r < d.clock →
        Answers (exec (.railGood r) s) (fun t => t.boot.start ≠ 12 ∧ 1 ≤ t.dev.msix.getD 64 0 ∧ t.boot.bundle = b.bundle ∧
          (Config.flashFails d.free = false → b.fsc = 3 → bit t.boot.bootstat 0 = true ∧ bsReason t.boot = 5 ∧ bsUnit t.boot = r)))) ∧
    railLimit 0 = 1200000 ∧ railLimit 3 = 1800000 ∧ railLimit 4 = 3000000 ∧ railLimit 7 = 3000000 ∧ railLimit 8 = 1200000 ∧
    (∀ v : W64,
      (bsMinimal b = true ∨ v = 0x3FF ∨ bits v 63 10 ≠ 0 ∨ (∃ e ∈ d.ports, e.2.state = 2) → exec (.cwselfWrite v) s = .next s) ∧
      (bsMinimal b = false → v ≠ 0x3FF → bits v 63 10 = 0 → (∀ e ∈ d.ports, e.2.state ≠ 2) → exec (.cwselfWrite v) s =
        .next { s with boot := { b with meas := b.meas.set 3 (extendMeas (b.meas.getD 3 0) [v.extractLsb' 0 8, v.extractLsb' 8 8, 0, 0, 0, 0, 0, 0]) },
                       dev := { d with cwself := v } }))

/-! ### The causeway -/

/-- R408 to R415, R435, R442: a port delivers good flits in order and returns their acknowledgement, and asks for the others again;
acknowledgements free the retry buffer, eight failed resends or a lost lock take the port down with what it had sent; retraining brings it up
with fresh numbers within the limits of its steps, and leaves it down after them; the results of either are measured. Routes and requests of
peers are accepted or refused as R412 and R413 say. The model's choices: each good flit is acknowledged at once, the five steps have one
limit (log 25), the bytes measured (log 9), and a CWRQ write with GO 0 keeps REJ while GO reads 0 after a refusal (log 51). -/
def Obligations.PortsCarryMessages : Prop :=
  ∀ (s : State) (p : Nat), let d := s.dev
    let x := d.port p
    let set := fun (y : Port) => (.next { s with dev := d.setPort p y } : Host.Outcome State Fault Refusal)
    let measured : Boot := { s.boot with meas := s.boot.meas.set 3 (extendMeas (s.boot.meas.getD 3 0) (Config.linkBytes d.free p)) }
    (p < 8 → bsMinimal s.boot = false →
      exec (.cwctlRetrain p) s = set (if x.state = 0 then { x with cwctl := x.cwctl ||| 1#64, state := 1, since := d.clock }
        else { x with cwctl := x.cwctl ||| 1#64 })) ∧
    (8 ≤ p ∨ bsMinimal s.boot = true → exec (.cwctlRetrain p) s = .next s) ∧
    (x.state ≠ 1 ∨ 8 ≤ p → exec (.causewayPortUp p) s = .next s) ∧
    (p < 8 → x.state = 1 → d.clock ≤ x.since + 22200000 → Answers (exec (.causewayPortUp p) s) (fun t => ∃ n : Nat, n ≤ 10 ∧
      let up : Port := { x with state := 2, preset := n, sendSeq := 0, recvSeq := 0, retry := [], resends := 0, back := none }
      t = { s with dev := d.setPort p up, boot := measured })) ∧
    (p < 8 → x.state = 1 → x.since + 22200000 < d.clock → exec (.causewayPortUp p) s = exec (.portDown p) s) ∧
    (∀ f : Flit,
      (x.state ≠ 2 ∨ 8 ≤ p → exec (.flitReceive p f) s = .next s) ∧
      (p < 8 → x.state = 2 → f.crcOk = false ∨ f.seq ≠ x.recvSeq → 
        exec (.flitReceive p f) s = set { x with refused := x.refused + 1, back := some (x.recvSeq, true) }) ∧
      (∀ stamp tag line what, p < 8 → x.state = 2 → f.crcOk = true → f.seq = x.recvSeq → f.msg = .request stamp tag line what →
        Answers (exec (.flitReceive p f) s) (fun t => t.boot = s.boot ∧ t.dev.mem = d.mem ∧
          t.dev.port p = { x with recvSeq := (x.recvSeq + 1) % 65536, back := some (x.recvSeq, false), inbox := x.inbox ++ [f.msg] })) ∧
      (∀ (op line i : Nat) (c : Coll), p < 8 → x.state = 2 → f.crcOk = true → f.seq = x.recvSeq → f.msg = .writeAck op line →
        d.ops.get? (op / 2 ^ 46) = none → d.colls[i]? = some c →
        Answers (exec (.flitReceive p f) s) (fun t => t.dev.mem = d.mem ∧
          t.dev.port p = { x with recvSeq := (x.recvSeq + 1) % 65536, back := some (x.recvSeq, false) } ∧
          let answers := fun (e : Nat × Nat × Nat) => e.1 == 2 * op && e.2.1 % 2 ^ 34 == line && e.2.2 == p
          t.dev.colls[i]? = some { c with pending := c.pending.filter (fun e => !answers e) } ∧
          t.dev.lateAcks = d.lateAcks.filter (fun e => !answers e.2)))) ∧
    (∀ seq, ((x.state ≠ 2 ∨ ∀ e ∈ x.retry, e.1 ≠ seq) → ∀ r, exec (.flitAck p seq r) s = .next s) ∧
      (∀ l m r, x.state = 2 → x.retry = l ++ (seq, m) :: r → (∀ e ∈ l, e.1 ≠ seq) →
        (d.outbox = [] → exec (.flitAck p seq false) s = set { x with retry := r, resends := 0 }) ∧
        (x.resendOf ≠ seq → exec (.flitAck p seq true) s = set { x with resends := 1, resendOf := seq }) ∧
        (x.resendOf = seq → x.resends < 8 → exec (.flitAck p seq true) s = set { x with resends := x.resends + 1 }) ∧
        (x.resendOf = seq → 8 ≤ x.resends → exec (.flitAck p seq true) s = exec (.portDown p) s))) ∧
    (x.state = 0 → exec (.portDown p) s = .next s) ∧
    (x.state ≠ 0 → (∀ e ∈ d.ops, ∀ u ∈ e.2.subs, isPeer (u.2.line * 64) = false) → Answers (exec (.portDown p) s) (fun t =>
      t.boot = (if p < 8 ∧ x.state = 1 then measured else s.boot) ∧ t.dev.mem = d.mem ∧
      t.dev.msix.getD 64 0 = d.msix.getD 64 0 + 1 ∧ t.dev.outbox = d.outbox.filter (fun m => m.1 != p) ∧
      let lost := x.lost + (d.colls.map (fun c => (c.pending.filter (fun e => e.2.2 == p)).length)).sum +
        (d.lateAcks.filter (fun e => e.2.2.2 == p)).length
      t.dev.port p = { x with state := 0, retry := [], resends := 0, lost := lost } ∧
      t.dev.colls = d.colls.map (fun c => { c with pending := c.pending.filter (fun e => e.2.2 != p) }) ∧
      t.dev.lateAcks = d.lateAcks.filter (fun e => e.2.2.2 != p))) ∧
    (∀ v : W64, bsMinimal s.boot = true → exec (.cwrqGo v) s = .next s) ∧
    (∀ v : W64, bsMinimal s.boot = false → let peer := bits v 9 0
      (bit v 63 = false → Answers (exec (.cwrqGo v) s) (fun t => t = { s with dev := { d with cwrq := t.dev.cwrq } } ∧
        bits t.dev.cwrq 61 0 = bits v 61 0 ∧ bit t.dev.cwrq 62 = bit d.cwrq 62 ∧ bit t.dev.cwrq 63 = false)) ∧
      (bit v 63 = true → peer = 0x3FF ∨ peer = d.cwself.toNat ∨ bits v 61 14 ≠ 0 ∨ d.cwself = 0x3FF →
        exec (.cwrqGo v) s = .next { s with dev := { d with cwrq := d.cwrq ||| 0x4000000000000000#64 } }) ∧
      (bit v 63 = true → peer ≠ 0x3FF → peer ≠ d.cwself.toNat → bits v 61 14 = 0 → d.cwself ≠ 0x3FF →
        Answers (exec (.cwrqGo v) s) (fun t => t.boot = s.boot ∧ t.dev = { d with cwroute := t.dev.cwroute, cwrq := t.dev.cwrq } ∧
          bits t.dev.cwrq 13 0 = bits v 13 0 ∧ bits t.dev.cwrq 63 62 = 0 ∧
          (∀ j, j ≠ peer → t.dev.cwroute.getD j 0 = d.cwroute.getD j 0) ∧
          bits (t.dev.cwroute.getD peer 0) 2 0 = bits v 12 10 ∧ bit (t.dev.cwroute.getD peer 0) 3 = bit v 13))) ∧
    (8 ≤ p ∨ x.inbox.all (fun m => !isRequestMsg m) = true → exec (.causewayRequest p) s = .next s) ∧
    (∀ stamp tag line what, p < 8 → x.inbox.find? isRequestMsg = some (.request stamp tag line what) →
      let rest : Port := { x with inbox := x.inbox.erase (.request stamp tag line what) }
      (stamp = 0x3FF ∨ isHbm (line * 64) = false ∨ inboundPart d stamp line = none → x.state = 2 → x.retry.length < 512 →
        exec (.causewayRequest p) s =
          set { rest with retry := x.retry ++ [(x.sendSeq, .refused tag line)], sendSeq := (x.sendSeq + 1) % 65536 }) ∧
      (∀ q, stamp ≠ 0x3FF → isHbm (line * 64) = true → inboundPart d stamp line = some q →
        ((d.pan (panOf d q line)).banks.getD (bankOf (line * 64)) []).length < 64 →
        Answers (exec (.causewayRequest p) s) (fun t => t.boot = s.boot ∧ t.dev.mem = d.mem ∧ t.dev.port p = rest ∧
          (∃ o key, t.dev.ops.get? d.nextId = some o ∧ o.kind = .peer p tag ∧ o.part = q ∧ o.subs = [(key, { Sub.new line (peerAct what) with order := d.replies })] ∧
            ∃ front back, (d.pan (panOf d q line)).banks.getD (bankOf (line * 64)) [] = front ++ back ∧
              (t.dev.pan (panOf d q line)).banks.getD (bankOf (line * 64)) [] = front ++ (d.nextId, key) :: back ∧
              ∀ h ∈ back.head?, ∃ oh uh, subOf d h = some (oh, uh) ∧ uh.line = line ∧ oh.cluster = 1024 + p ∧ d.replies < uh.order))))

/-- R417 to R423: the engine of a collective sends its chunk once its windows are held, its flag once the chunk is acknowledged, and takes in the
chunk of its own slot once its flag is there; after the last step the communication warp's flags, the windows and the gate are served, and
a write still on its way stays owed (R414). An abort of the running attempt stops a rank and every rank's READY starts the next attempt. That
a message of a later attempt waits in the inbox, and that a received ABORT is not sent on, is the model's (log 52). -/
def Obligations.CollectivesRunStepByStep : Prop :=
  ∀ (s : State) (i : Nat), let d := s.dev
    (d.colls[i]? = none → exec (.collStep i) s = .next s ∧ exec (.collComplete i) s = .next s) ∧
    (∀ e, d.colls[i]? = some e →
      (e.phase = 4 → e.pending = [] → Answers (exec (.collStep i) s) (fun t => t.boot = s.boot ∧ t.dev.mem = d.mem ∧
        t.dev.colls[i]? = some { e with attempt := (e.attempt + 1) % 256, step := 0, phase := 0, ready := [], flags := 0 })) ∧
      (e.phase = 4 → e.pending ≠ [] → exec (.collStep i) s = .next s) ∧
      (collCrew d e = none → e.phase ≠ 4 → exec (.collStep i) s = .next s ∧ exec (.collComplete i) s = .next s) ∧
      (∀ c, collCrew d e = some c →
        let next := fun (t : State) => t.boot = s.boot ∧ t.dev.mem = d.mem ∧ t.dev.warps = d.warps
        (e.phase ≠ 4 → e.stopped = true → exec (.collStep i) s = .next s) ∧
        (e.stopped = false → e.fseqs = [] → (c.save == .discard) = false →
          (e.phase = 0 → (∀ n ∈ collWins e.desc, n ∈ e.held) → collTurn d e = true → d.cwself ≠ 0x3FF →
            Answers (exec (.collStep i) s) (fun t => next t ∧ ∃ e', t.dev.colls[i]? = some e' ∧ e'.phase = 1 ∧ e'.step = e.step ∧
              ∀ port, portFor d (2 ^ 50 + (e.ranks.getD ((clRank e.desc + 1) % clN e.desc) (0x3FF, 0)).1 * 2 ^ 40) = some port →
                e'.pending.length = e.pending.length + clChunk e.desc / 64)) ∧
          (e.phase = 0 → d.cwself = 0x3FF → (∀ n ∈ collWins e.desc, n ∈ e.held) → exec (.collStep i) s = .next s) ∧
          (e.phase = 1 → e.pending ≠ [] → exec (.collStep i) s = .next s) ∧
          (∀ peer stage port, e.phase = 1 → e.pending = [] → e.ranks.getD ((clRank e.desc + 1) % clN e.desc) (0x3FF, 0) = (peer, stage) →
            portFor d (2 ^ 50 + peer * 2 ^ 40) = some port → (d.port port).retry.length < 512 →
            let line := (stage + 4 * e.step) / 64 % 2 ^ 34
            let flag := clId e.desc * 2 ^ 16 + e.attempt * 2 ^ 8 + e.step
            Answers (exec (.collStep i) s) (fun t => next t ∧
              t.dev.colls[i]? = some { e with phase := 2, pending := [(2 * d.nextId, (2 ^ 50 + peer * 2 ^ 40) / 64 + line, port)] } ∧
              (t.dev.port port).retry = (d.port port).retry ++ [((d.port port).sendSeq,
                .request d.cwself.toNat (2 * d.nextId) line (.store (storeBytes (4 * e.step % 64) flag 4)))])) ∧
          (∀ va, e.phase = 2 → stageRead d e c (4 * e.step) 4 = .miss va →
            exec (.collStep i) s = .next { s with dev := addMiss d (c.cluster / 64) e.part va (.coll e.crew) }) ∧
          (e.phase = 2 → stageRead d e c (4 * e.step) 4 = .wait → exec (.collStep i) s = .next s) ∧
          (∀ v bad, e.phase = 2 → stageRead d e c (4 * e.step) 4 = .ok v bad →
            let flag := clId e.desc * 2 ^ 16 + e.attempt * 2 ^ 8 + e.step
            let d1 := stageFetch d e c (4 * e.step) 4
            (bad = true ∨ v ≠ flag → exec (.collStep i) s = .next { s with dev := dropAnswers d1 (c.cluster / 64) (.coll e.crew) }) ∧
            (∀ d2, bad = false → v = flag → collRecv i e c (List.range (clChunk e.desc / 64)) d1 = .inl d2 →
              Answers (exec (.collStep i) s) (fun t => next t ∧ ∃ e', t.dev.colls[i]? = some e' ∧
                (e'.phase, e'.step) = (if e.step + 1 = clSteps e.desc then (3, e.step) else (0, e.step + 1)) ∧
                (clKind e.desc = 0 → e'.flags = e.flags)))) ∧
          (e.phase = 3 → exec (.collStep i) s = .next s)) ∧
        (e.phase ≠ 3 ∨ e.stopped = true → exec (.collComplete i) s = .next s) ∧
        (∀ w, e.phase = 3 → e.stopped = false → d.warps.get? (c.warps.getD e.cwarp 0) = some w → e.held.Nodup → e.tileOp = none →
          Answers (exec (.collComplete i) s) (fun t => t.boot = s.boot ∧ t.dev.mem = d.mem ∧ t.dev.colls = d.colls.eraseIdx i ∧
            t.dev.lateAcks = d.lateAcks ++ e.pending.map (fun q => (e.part, q)) ∧
            (∃ w', t.dev.warps.get? (c.warps.getD e.cwarp 0) = some w' ∧
              w' = { w with wstat := w.wstat ||| e.flags, lready := w'.lready }) ∧
            (∀ k, k ≠ c.warps.getD e.cwarp 0 → t.dev.warps.get? k =
              (d.warps.get? k).map (fun v => { v with lready := ((t.dev.warps.get? k).getD v).lready })) ∧
            ∃ c', t.dev.crews.get? e.crew = some c' ∧ c'.id = e.id ∧ c'.arrivals = (c.arrive e.gate).arrivals ∧
              ∀ n, (c'.win n).holds = (c.win n).holds - (if e.held.contains n then 1 else 0)))) ∧
      (∀ n, let ahead := (n + 256 - e.attempt) % 256
        (ahead ≠ 0 → ahead < 128 → exec (.collAbort i n) s = .next s ∧ ∀ r, r ≠ clRank e.desc → exec (.collReady i n r) s = .next s) ∧
        (((∀ p, p < 8 → PortMsg.abort (clId e.desc) n ∉ (d.port p).inbox) → exec (.collAbort i n) s = .next s)) ∧
        (n = e.attempt → (∃ p, p < 8 ∧ PortMsg.abort (clId e.desc) n ∈ (d.port p).inbox) → Answers (exec (.collAbort i n) s) (fun t =>
          t.boot = s.boot ∧ t.dev.mem = d.mem ∧
          t.dev.colls[i]? = some { e with stopped := true, attempt := (e.attempt + 1) % 256, step := 0, phase := 0, ready := [], flags := 0 })) ∧
        (∀ r, r ≠ clRank e.desc → n = e.attempt → r ∉ e.ready → (∃ p, p < 8 ∧ PortMsg.ready (clId e.desc) n r ∈ (d.port p).inbox) →
          let all := (List.range (clN e.desc)).all (fun j => (e.ready ++ [r]).contains j)
          Answers (exec (.collReady i n r) s) (fun t => t.boot = s.boot ∧ t.dev.mem = d.mem ∧
            t.dev.colls[i]? = some (if all then { e with ready := e.ready ++ [r], stopped := false, step := 0, phase := 0 }
              else { e with ready := e.ready ++ [r] }))) ∧
        (∀ c r, r = clRank e.desc → n = e.attempt → collCrew d e = some c → e.stopped = true → e.phase ≠ 4 → r ∉ e.ready → e.pending = [] →
          e.fseqs = [] → (c.save == .discard) = false → (∀ m ∈ collWins e.desc, m ∈ e.held) → Answers (exec (.collReady i n r) s) (fun t =>
            t.boot = s.boot ∧ t.dev.mem = d.mem ∧ ∃ e', t.dev.colls[i]? = some e' ∧ e'.ready = e.ready ++ [r] ∧ e'.attempt = e.attempt)) ∧
        (e.stopped = false → exec (.collReady i n (clRank e.desc)) s = .next s)))

/-! ### The machine as a whole -/

/-- R90 to R92, R135 to R143, R201 to R205, R340, R343 to R349, R372, R375, R377, R378, R418 to R423: where the status words, atom and kvx, the
steps of the rake, of queues and of collectives complete: each answers a next state, with the effect that is its own, whenever the state and
its operands are as stated. -/
def Obligations.WordsAndStepsComplete : Prop :=
  (∀ (s : State) (k : Nat) (w : Warp), Issuing s k w → lanesDrained w = true →
    (∀ f n : BitVec 6, w.pendingS [f.toNat] = false → n.toNat < 12 ∨ (48 ≤ n.toNat ∧ n.toNat < 52) →
      ∃ t v, exec (.srd f 0 n) s = .next t ∧ statusRead s.dev w n.toNat = some v ∧ .next t = ran s k (w.setS f.toNat v) 4) ∧
    (∀ a n : BitVec 6, w.pendingS [a.toNat] = false → 1 ≤ (w.s a.toNat).toNat → (w.s a.toNat).toNat ≤ 64 → n = 2#6 ∨ n = 3#6 ∨ n = 4#6 →
      ∃ t w', exec (.swr 0 a n) s = .next t ∧ .next t = ran s k w' 4 ∧ (n = 2#6 → w' = { w with wstat := w.s a.toNat }) ∧
        (n = 3#6 → w' = { w with nmode := w.s a.toNat }) ∧ (n = 4#6 → w' = { w with lanes := (w.s a.toNat).toNat }))) ∧
  (∀ (s : State) (k : Nat) (w : Warp) (b : Block) (f : LaneWord), LaneIssuing s k w b → w.lpark = .run ∨ w.lpark = .again →
    (∀ l, mustWait s.dev k w l = false) →
    let on := lanesOn (execMask w b f)
    let x := lcx s.dev w b
    let issued := fun (t : State) => t.dev.mem = s.dev.mem ∧ ∃ o, t.dev.ops.get? s.dev.nextId = some o ∧ o.warp = k
    (LaneLegal (atomRow f.ty.toNat f.mdf.toNat) f w b → on ≠ [] → w.full .a = false →
      (ordersOf s.dev w.cluster (on.map (fun i => x.read f.s0.toNat 6 i))).1 = none →
      (∀ i ∈ on, let va := BitVec.ofNat 64 (x.read f.s1.toNat 7 i)
        va.toNat % elemSize f.ty.toNat = 0 ∧ x.read f.s0.toNat 6 i ≤ 63 ∧ ∃ v pa l, aform va = .va v ∧
          xlate s.dev w.xl w.cluster (s.dev.partOf w) v .write = .hit pa l) →
      ∃ t, exec (.atom f) s = .next t ∧ issued t ∧
        ∃ w', t.dev.warps.get? k = some w' ∧ w'.outA = w.outA ++ [⟨s.dev.nextId, false⟩] ∧ w'.lword = (pastWord s w b f).lword) ∧
    (LaneLegal ⟨fun t => t == 7, mod0, true, .dst 7, .src 7, .src 7, .src 7, .pdst⟩ f w b → on ≠ [] → w.full .t = false →
      (∀ i ∈ on, ∃ va blk off at_ v hdr, aform (BitVec.ofNat 64 (x.read f.s2.toNat 7 i)) = .va va ∧ va % 32 = 0 ∧
        kvLane s.dev w va (x.read f.s0.toNat 7 i % 2 ^ 32) (x.read f.s1.toNat 7 i % 2 ^ 32) =
          .entry va (x.read f.s0.toNat 7 i % 2 ^ 32) blk off at_ v hdr) →
      ∃ t, exec (.kvx f) s = .next t ∧ issued t ∧
        ∃ w', t.dev.warps.get? k = some w' ∧ w'.outT = w.outT ++ [⟨s.dev.nextId, false⟩] ∧ w'.lword = (pastWord s w b f).lword)) ∧
  (∀ (s : State) (nk : Nat) (n : Nest), let d := s.dev
    d.nests.get? nk = some n →
    (∀ spot, wantsGang d nk n = true → (∀ e ∈ d.nests, e.1 = nk) → n.gangSize = 1 → (d.part n.part).spanLog = 0 →
      chooseSpot d ⟨List.replicate n.warpsPer n.gran, n.ssize, n.tilesDecl⟩ (d.part n.part).firstSpan = some spot →
      ∃ t, exec (.gangPlacement nk) s = .next t ∧ t.boot = s.boot ∧
        let placed := (freshCrew nk n 0 spot d).setNest nk { n with nextCrew := n.nextCrew + 1, nextGang := n.nextGang + 1 }
        ∃ e : Dev, t.dev = rakeRun nk e ∧ e.crews = placed.crews ∧ e.warps = placed.warps ∧
          e.nests.get? nk = some { n with nextCrew := n.nextCrew + 1, nextGang := n.nextGang + 1 }) ∧
    (∀ q, n.ending = false → q ∈ n.points → q.retires = true →
      ∃ t pt, exec (.pointRetire nk q.pt.linear) s = .next t ∧ t.boot = s.boot ∧ pt ∈ n.points ∧ pt.pt.linear = q.pt.linear ∧
        pt.retires = true ∧ t.dev = rakeRun nk (d.setNest nk (n.retire pt)))) ∧
  (∀ (s : State) (q : Nat), let d := s.dev
    let x := d.queue q
    (∀ v : W64, let tail : BitVec 32 := v.setWidth 32
      x.state = 1 → tail ≠ x.tail → (tail - x.tail).toNat < 2 ^ 31 → (tail - x.head).toNat ≤ 2 ^ x.rlog →
      ∃ t, exec (.notify q v) s = .next t ∧ t.boot = s.boot ∧ t.dev.mem = d.mem ∧ (t.dev.queue q).tail = tail ∧
        (t.dev.queue q).head = x.head ∧ (t.dev.queue q).state = 1) ∧
    (∀ sl v b, bsMinimal s.boot = false → (d.slot sl).queue = some q → x.state = 1 → x.fseq = none → (d.part x.part).halted = false →
      (d.part x.part).zeroing = false → x.pstep = 0 → x.mirror = false → x.head ≠ x.tail → readHead (headFetch d sl x) sl x = .ok v b →
      ∃ t, exec (.slotPoll sl) s = .next t ∧ t.boot = s.boot ∧ t.dev.mem = d.mem ∧ (t.dev.queue q).head = x.head ∧
        (t.dev.queue q).state = if atHead x v = .bad then 2 else 1) ∧
    (∀ b : List Byte, let y := blockQueue b
      hostReady s.boot = true → q < 1024 → y.state = 1 → x.state ≠ 1 → 4 ≤ y.rlog → y.rlog ≤ 16 → y.ring % (64 * 2 ^ y.rlog) = 0 →
      (y.tail - y.head).toNat ≤ 2 ^ y.rlog →
      ∃ t, exec (.qcbWrite q b) s = .next t ∧ t.boot = s.boot ∧ t.dev.mem = d.mem ∧ (t.dev.queue q).state = 1 ∧
        (t.dev.queue q).head = y.head ∧ (t.dev.queue q).tail = y.tail ∧ (t.dev.queue q).ring = y.ring) ∧
    (∀ (i : Nat) (g : Signal) pa l, bsMinimal s.boot = false → d.signals[i]? = some g → g.queue = q → x.fseq = none → g.store = none →
      g.saddr ≠ 0 → g.saddr + 8 ≤ 2 ^ 48 → agentX d 0 [] (.hart (64 + q)) x.part g.saddr .write = .hit pa l → isPeer pa = false →
      storeWaits d x.part pa 8 = false →
      ∃ t, exec (.completionSignal i) s = .next t ∧ t.boot = s.boot ∧ t.dev.mem = memWriteN d.mem pa 8 g.svalue.toNat ∧
        t.dev.signals = d.signals.eraseIdx i)) ∧
  (∀ (s : State) (i : Nat) (e : Coll), let d := s.dev
    d.colls[i]? = some e →
    (∀ c, collCrew d e = some c →
      (e.stopped = false → e.fseqs = [] → (c.save == .discard) = false → e.phase = 1 → e.pending = [] →
        ∃ t e', exec (.collStep i) s = .next t ∧ t.boot = s.boot ∧ t.dev.mem = d.mem ∧ t.dev.colls[i]? = some e' ∧ e'.phase = 2 ∧
          e'.step = e.step) ∧
      (e.stopped = false → e.phase = 3 →
        ∃ t, exec (.collComplete i) s = .next t ∧ t.boot = s.boot ∧ t.dev.mem = d.mem ∧ t.dev.colls = d.colls.eraseIdx i)) ∧
    ((∃ p, p < 8 ∧ PortMsg.abort (clId e.desc) e.attempt ∈ (d.port p).inbox) →
      ∃ t e', exec (.collAbort i e.attempt) s = .next t ∧ t.boot = s.boot ∧ t.dev.mem = d.mem ∧ t.dev.colls[i]? = some e' ∧
        e'.stopped = true ∧ e'.attempt = (e.attempt + 1) % 256 ∧ e'.step = 0) ∧
    (∀ r, r ≠ clRank e.desc → r ∉ e.ready → (∃ p, p < 8 ∧ PortMsg.ready (clId e.desc) e.attempt r ∈ (d.port p).inbox) →
      ∃ t e', exec (.collReady i e.attempt r) s = .next t ∧ t.boot = s.boot ∧ t.dev.mem = d.mem ∧ t.dev.colls[i]? = some e' ∧
        e'.ready = e.ready ++ [r] ∧ e'.attempt = e.attempt))

/-- R27, R30, R33, R213, R360, R362, R363: a turn lets its time pass, sends the requests that it lists, its front end or pipe sees which warps
are runnable, and its agent moves. When the bytes at the thread of the warp that a front end chooses decode to an instruction, a prefix taking
in the word behind it, the step runs that instruction for the warp; so does a lane pipe with the three words at the issue point of its warp.
Either issues at most one word in a core clock. A turn for a step of the machine runs that step. With no turn, and with no warp to issue, only
time passes; a start that has failed begins again (R434). The schedule is the model's: log 2, log 3, log 5. -/
def Obligations.StepRunsTheDecodedInstruction : Prop :=
  ∀ (s : State), (s.turns = [] → step s = .next (s.wait 1)) ∧
    (∀ dt, (s.boot.start ≠ 1 → s.wait dt = { s with dev := passTime dt s.dev }) ∧ (s.wait dt).turns = s.turns ∧
      (passTime dt s.dev).clock = s.dev.clock + dt ∧
      ((∀ e ∈ s.dev.parts, e.2.heldT = [] ∧ e.2.heldF = []) → (∀ e ∈ s.dev.warps, e.2.acquires = [] ∧ e.2.install = none) →
        passTime dt s.dev = { s.dev with clock := s.dev.clock + dt, free := s.dev.free + 1, actor := .none })) ∧
    (∀ t r, s.turns = t :: r →
      let s1 := s.wait t.dt
      let d := sendAll t.sends s1.dev
      let goes := fun (e : Dev) => ({ s1 with turns := r, dev := e } : State)
      (t.sends = [] → d = s1.dev) ∧
      (∀ i, t.who = .event i → encode i = .none → step s = exec i (goes d)) ∧
      (∀ c, t.who = .front c → let f := lookFront c d
        (∀ e ∈ d.warps, ∃ w', (e.1, w') ∈ f.warps ∧ w' = { e.2 with park := w'.park, ready := w'.ready, rank := w'.rank }) ∧
        ((f.cluster c).issued = f.clock + 1 ∨ chooseCand f (scalarCands f c) = none → step s = .next (goes f)) ∧
        ((f.cluster c).issued ≠ f.clock + 1 → let g := f.setCluster c { f.cluster c with issued := f.clock + 1 }
          ∀ k w v pa l i, chooseCand f (scalarCands f c) = some k → f.warps.get? k = some w → w.batchErr = [] →
          inCode g w w.spc = true → aform w.spc = .va v → xlate g w.xs w.cluster (g.partOf w) v .exec = .hit pa l →
          let word := devReadN g pa 4
          (word / 2 ^ 26 ≠ 63 → decodeScalarBytes (bytesOf word 4) = .ok i →
            step s = exec i (goes { g with actor := .scalar k })) ∧
          (∀ v' pb l', word / 2 ^ 26 = 63 → inCode g w (w.spc + 4) = true → aform (w.spc + 4) = .va v' →
            xlate g w.xs w.cluster (g.partOf w) v' .exec = .hit pb l' →
            decodeScalarBytes (bytesOf word 4 ++ bytesOf (devReadN g pb 4) 4) = .ok i →
            step s = exec i (goes { g with actor := .scalar k })))) ∧
      (∀ c p, t.who = .pipe c p → let f := lookPipes c d
        (∀ e ∈ d.warps, ∃ w', (e.1, w') ∈ f.warps ∧ w' = { e.2 with lpark := w'.lpark, lready := w'.lready }) ∧
        ((f.pipe c p).issued = f.clock + 1 → step s = .next (goes f)) ∧
        ((f.pipe c p).issued ≠ f.clock + 1 → ∀ k w b q x y z i, f.warps.get? k = some w → w.queue = b :: q →
          let a := b.base + 12 * w.lword
          let g := f.setPipe c p { f.pipe c p with cur := some k, issued := f.clock + 1 }
          fetchLane g w b a = .inl x → fetchLane g w b (a + 4) = .inl y → fetchLane g w b (a + 8) = .inl z →
          decodeLaneBytes (bytesOf x 4 ++ bytesOf y 4 ++ bytesOf z 4) = .ok i →
          ((f.pipe c p).cur = some k → w.pipe = p → w.cluster = c → laneRuns f k w = true → w.lready ≤ f.clock →
            step s = exec i (goes { g with actor := .lane k })) ∧
          ((f.pipe c p).cur = none → (f.pipe c p).hold ≤ f.clock → chooseCand f (laneCands f c p) = some k →
            step s = exec i (goes { g with actor := .lane k })))))

/-- R27 to R33, R56 to R62: words written out from the spec's encoding decode to the instructions they stand for. -/
def Obligations.DecodingReadsTheSpecsWords : Prop :=
  -- add.s64 s1, s2, s3: major 0, minor 0
  decodeTableWord 32 0b000000_000001_000010_000011_00000000 = some (.add 1 2 3 0) ∧
  -- gwait g3: major 2, minor 1, operand a
  decodeTableWord 32 0b000010_000000_000011_000000_00000001 = some (.gwait 0 3 0) ∧
  -- trap 5: major 3, minor 16, operand b
  decodeTableWord 32 0b000011_000000_000000_000101_00010000 = some (.trap 0 0 5) ∧
  -- mma: major 35, minor 0
  decodeTableWord 32 0b100011_000000_001010_001110_00000000 = some (.mma 0 10 14) ∧
  -- pdone: major 36, minor 3
  decodeTableWord 32 0b100100_000000_000000_000000_00000011 = some (.pdone 0 0 0) ∧
  -- coll.start: major 37, minor 3
  decodeTableWord 32 0b100101_000000_000110_000010_00000011 = some (.collStart 0 6 2)

/-- R434, R435, R65: the machine right after reset is in a safe state, with the values that the spec gives: no start under way, FEATCTL, FSC and the
measurements 0, no throttle, no rail enabled, CWSELF without an identity, no partition enabled and no warp. Memory lists nothing (what it
then reads as is the model's: log 1; the other registers' 0 is log 19). -/
def Obligations.ResetIsSafe : Prop :=
  let s := State.reset
  s.safe = true ∧ s.boot.featctl = 0 ∧ s.boot.fsc = 0 ∧ s.boot.start = 0 ∧ (∀ i, s.boot.meas.getD i 0 = 0) ∧ s.boot.throttle = 0 ∧ s.boot.pwrctl = 0 ∧
    s.boot.pwrstat = 0 ∧ s.dev.cwself = 0x3FF ∧ (∀ p, (s.dev.part p).enabled = false) ∧ (∀ k, s.dev.warps.get? k = none) ∧
    (∀ c, (s.dev.port c).state = 0) ∧ (∀ q, (s.dev.queue q).state = 0) ∧ s.dev.mem = []

/-- R12: the operations on memory: a number written is read back little-endian, bytes outside it are as before, the canonical form is kept, and
equal memories are equal data. -/
def Obligations.MemoryReadsBackWhatWasWritten : Prop :=
  (∀ (m : Mem) (a n v : Nat), Memory.wf m = true → Memory.wf (memWriteN m a n v) = true ∧ memReadN (memWriteN m a n v) a n = v % 256 ^ n ∧
    (∀ i, i < n → memRead (memWriteN m a n v) (a + i) = BitVec.ofNat 8 (v / 256 ^ i)) ∧
    (∀ j, j < a ∨ a + n ≤ j → memRead (memWriteN m a n v) j = memRead m j)) ∧
  (∀ (m : Mem) (p : Host.Cell → Bool), Memory.wf m = true → Memory.wf (m.filter p) = true) ∧
  (∀ m m' : Mem, Memory.wf m = true → Memory.wf m' = true → (∀ a, memRead m a = memRead m' a) → m = m') ∧
  (∀ (d : Dev) (l : Nat) (bs : List (Nat × Byte × Byte)), Memory.wf d.mem = true → Memory.wf (storeLine d l bs).mem = true ∧
    ∀ j, (∀ b ∈ bs, j ≠ l * 64 + b.1) → memRead (storeLine d l bs).mem j = memRead d.mem j)

/-- R27 to R33, R56 to R62: decoding the words of a well-formed instruction, with anything behind them, gives it back, with every operand at
every value that the encoding admits. -/
def Obligations.DecodeInvertsEncode : Prop :=
  ∀ (i : Instr) (rest : List Byte), wfInstr i = true →
    match encode i with
    | .scalar w => decodeScalarBytes (bytesOf w.toNat 4 ++ rest) = .ok i
    | .pair w next => decodeScalarBytes (bytesOf w.toNat 4 ++ bytesOf next.toNat 4 ++ rest) = .ok i
    | .lane w => decodeLaneBytes (bytesOf w.toNat 12 ++ rest) = .ok i
    | .none => isEvent i = true

/-- R27 to R33, R56 to R62: every word of either stream has one meaning: encoding what it decodes to gives the word back, a prefix with the word
behind it. -/
def Obligations.EveryWordEncodesBack : Prop :=
  (∀ w next : W32, encode (decodeScalar w next) = if fMajor w = 63 then .pair w next else .scalar w) ∧
  (∀ w : BitVec 96, encode (decodeLane w) = .lane w) ∧
  (∀ w w' next next' : W32, fMajor w ≠ 63 → decodeScalar w next = decodeScalar w' next' → w = w')

/-- R434 to R441: every step keeps the registers of the start and the power sequence legal: at most three starts in a row have failed and BOOTSTAT
counts them, its reserved bits are 0, minimal mode excludes a start under way or due (log 92), no rail is good that is not enabled, the throttle has sixteen
steps, a stack is at a step of its training. -/
def Obligations.StartRegistersStayLegal : Prop :=
  ∀ s t : State, s.boot.legal = true → step s = .next t → t.boot.legal = true

/-- R428, R432 to R442: only the start, the host's management writes and the power, memory and links harts change the registers of the start and the
power sequence: no word of a program and no other row of the table does, and no instruction changes the schedule (log 2). -/
def Obligations.OnlyManagementChangesTheStart : Prop :=
  ∀ (i : Instr) (s t : State), exec i s = .next t → t.turns = s.turns ∧ (isManagement i = false → t.boot = s.boot)

/-- R27, R213, R362: the machine never stops: from every state a step answers a next state. That no word and no step ends in a fault or a refusal
is the model's reading (log 4, log 87). -/
def Obligations.EveryStepAnswersANextState : Prop :=  ∀ s : State, ∃ t, step s = .next t
end

