-- ==== Sys2Proof/Laws/Encoding.lean ====
section
/-!
SUPPORT. The fields of an encoded word are the fields it was made of, and a word is made of its fields (R27, R33).
-/
namespace Sys2Proof

/-- A slice above the low part of a concatenation. -/
theorem slice_high {n m : Nat} (x : BitVec n) (y : BitVec m) (lo len : Nat) (h : m ≤ lo) :
    (x ++ y).extractLsb' lo len = x.extractLsb' (lo - m) len := by
  ext i hi
  simp only [BitVec.getElem_extractLsb', BitVec.getLsbD_append]
  rw [if_neg (by omega)]
  congr 1; omega

/-- A slice within the low part of a concatenation. -/
theorem slice_low {n m : Nat} (x : BitVec n) (y : BitVec m) (lo len : Nat) (h : lo + len ≤ m) :
    (x ++ y).extractLsb' lo len = y.extractLsb' lo len := by
  ext i hi
  simp only [BitVec.getElem_extractLsb', BitVec.getLsbD_append]
  rw [if_pos (by omega)]

/-- Two slices that meet make one. -/
theorem slice_join {n : Nat} (w : BitVec n) (lo m k : Nat) :
    w.extractLsb' (lo + k) m ++ w.extractLsb' lo k = w.extractLsb' lo (m + k) := by
  ext i hi
  simp only [BitVec.getElem_append, BitVec.getElem_extractLsb']
  split
  · rfl
  · congr 1; omega

section SR
variable (m d a b : BitVec 6) (n : BitVec 8)

@[simp] theorem fMajor_encSR : fMajor (encSR m d a b n) = m := by
  unfold fMajor encSR
  repeat (refine (slice_high _ _ _ _ (by decide)).trans ?_)
  try refine (slice_low _ _ _ _ (by decide)).trans ?_
  exact BitVec.extractLsb'_eq_self ..
@[simp] theorem fD_encSR : fD (encSR m d a b n) = d := by
  unfold fD encSR
  repeat (refine (slice_high _ _ _ _ (by decide)).trans ?_)
  try refine (slice_low _ _ _ _ (by decide)).trans ?_
  exact BitVec.extractLsb'_eq_self ..
@[simp] theorem fA_encSR : fA (encSR m d a b n) = a := by
  unfold fA encSR
  repeat (refine (slice_high _ _ _ _ (by decide)).trans ?_)
  try refine (slice_low _ _ _ _ (by decide)).trans ?_
  exact BitVec.extractLsb'_eq_self ..
@[simp] theorem fB_encSR : fB (encSR m d a b n) = b := by
  unfold fB encSR
  repeat (refine (slice_high _ _ _ _ (by decide)).trans ?_)
  try refine (slice_low _ _ _ _ (by decide)).trans ?_
  exact BitVec.extractLsb'_eq_self ..
@[simp] theorem fMinor_encSR : fMinor (encSR m d a b n) = n := by
  unfold fMinor encSR
  repeat (refine (slice_high _ _ _ _ (by decide)).trans ?_)
  try refine (slice_low _ _ _ _ (by decide)).trans ?_
  exact BitVec.extractLsb'_eq_self ..
/-- A slice of the minor field. -/
theorem slice_encSR (lo len : Nat) (h : lo + len ≤ 8) : (encSR m d a b n).extractLsb' lo len = n.extractLsb' lo len :=
  slice_low _ _ _ _ h

end SR

section SI
variable (m d a : BitVec 6) (imm : BitVec 14)

@[simp] theorem fMajor_encSI : fMajor (encSI m d a imm) = m := by
  unfold fMajor encSI
  repeat (refine (slice_high _ _ _ _ (by decide)).trans ?_)
  try refine (slice_low _ _ _ _ (by decide)).trans ?_
  exact BitVec.extractLsb'_eq_self ..
@[simp] theorem fD_encSI : fD (encSI m d a imm) = d := by
  unfold fD encSI
  repeat (refine (slice_high _ _ _ _ (by decide)).trans ?_)
  try refine (slice_low _ _ _ _ (by decide)).trans ?_
  exact BitVec.extractLsb'_eq_self ..
@[simp] theorem fA_encSI : fA (encSI m d a imm) = a := by
  unfold fA encSI
  repeat (refine (slice_high _ _ _ _ (by decide)).trans ?_)
  try refine (slice_low _ _ _ _ (by decide)).trans ?_
  exact BitVec.extractLsb'_eq_self ..
@[simp] theorem fImm_encSI : fImm (encSI m d a imm) = imm := by
  unfold fImm encSI
  repeat (refine (slice_high _ _ _ _ (by decide)).trans ?_)
  try refine (slice_low _ _ _ _ (by decide)).trans ?_
  exact BitVec.extractLsb'_eq_self ..

end SI

section SB
variable (m : BitVec 6) (p : BitVec 4) (o : BitVec 22) (h : BitVec 26)

@[simp] theorem fMajor_encSB : fMajor (encSB m p o) = m := by
  unfold fMajor encSB
  repeat (refine (slice_high _ _ _ _ (by decide)).trans ?_)
  try refine (slice_low _ _ _ _ (by decide)).trans ?_
  exact BitVec.extractLsb'_eq_self ..
@[simp] theorem predicate_encSB : (encSB m p o).extractLsb' 22 4 = p := by
  unfold encSB
  repeat (refine (slice_high _ _ _ _ (by decide)).trans ?_)
  try refine (slice_low _ _ _ _ (by decide)).trans ?_
  exact BitVec.extractLsb'_eq_self ..
@[simp] theorem offset_encSB : (encSB m p o).extractLsb' 0 22 = o := by
  unfold encSB
  repeat (refine (slice_high _ _ _ _ (by decide)).trans ?_)
  try refine (slice_low _ _ _ _ (by decide)).trans ?_
  exact BitVec.extractLsb'_eq_self ..
@[simp] theorem fMajor_prefixWord : fMajor (m ++ h) = m :=
  (slice_high m h 26 6 (by decide)).trans (BitVec.extractLsb'_eq_self ..)
@[simp] theorem high_prefixWord : (m ++ h).extractLsb' 0 26 = h :=
  (slice_low m h 0 26 (by decide)).trans (BitVec.extractLsb'_eq_self ..)

end SB

/-! ### Words from their fields -/

theorem encSR_fields (w : W32) : encSR (fMajor w) (fD w) (fA w) (fB w) (fMinor w) = w := by
  unfold encSR fMajor fD fA fB fMinor
  rw [show w.extractLsb' 26 6 ++ w.extractLsb' 20 6 = w.extractLsb' 20 12 from slice_join w 20 6 6]
  rw [show w.extractLsb' 20 12 ++ w.extractLsb' 14 6 = w.extractLsb' 14 18 from slice_join w 14 12 6]
  rw [show w.extractLsb' 14 18 ++ w.extractLsb' 8 6 = w.extractLsb' 8 24 from slice_join w 8 18 6]
  rw [show w.extractLsb' 8 24 ++ w.extractLsb' 0 8 = w.extractLsb' 0 32 from slice_join w 0 24 8]
  exact BitVec.extractLsb'_eq_self ..

theorem encSI_fields (w : W32) : encSI (fMajor w) (fD w) (fA w) (fImm w) = w := by
  unfold encSI fMajor fD fA fImm
  rw [show w.extractLsb' 26 6 ++ w.extractLsb' 20 6 = w.extractLsb' 20 12 from slice_join w 20 6 6]
  rw [show w.extractLsb' 20 12 ++ w.extractLsb' 14 6 = w.extractLsb' 14 18 from slice_join w 14 12 6]
  rw [show w.extractLsb' 14 18 ++ w.extractLsb' 0 14 = w.extractLsb' 0 32 from slice_join w 0 18 14]
  exact BitVec.extractLsb'_eq_self ..

theorem encSB_fields (w : W32) : encSB (fMajor w) (w.extractLsb' 22 4) (w.extractLsb' 0 22) = w := by
  unfold encSB fMajor
  rw [show w.extractLsb' 26 6 ++ w.extractLsb' 22 4 = w.extractLsb' 22 10 from slice_join w 22 6 4]
  rw [show w.extractLsb' 22 10 ++ w.extractLsb' 0 22 = w.extractLsb' 0 32 from slice_join w 0 10 22]
  exact BitVec.extractLsb'_eq_self ..

theorem prefixWord_fields (w : W32) : fMajor w ++ w.extractLsb' 0 26 = w := by
  unfold fMajor
  rw [show w.extractLsb' 26 6 ++ w.extractLsb' 0 26 = w.extractLsb' 0 32 from slice_join w 0 6 26]
  exact BitVec.extractLsb'_eq_self ..

/-! ### Lane words -/

@[simp] theorem opcode_encLane (op : BitVec 10) (f : LaneWord) : (encLane op f).extractLsb' 86 10 = op := by
  unfold encLane
  repeat (refine (slice_high _ _ _ _ (by decide)).trans ?_)
  exact BitVec.extractLsb'_eq_self ..

@[simp] theorem laneFields_encLane (op : BitVec 10) (f : LaneWord) : laneFields (encLane op f) = f := by
  unfold laneFields encLane
  congr 1
  all_goals
    repeat (refine (slice_high _ _ _ _ (by decide)).trans ?_)
    try refine (slice_low _ _ _ _ (by decide)).trans ?_
    exact BitVec.extractLsb'_eq_self ..

theorem encLane_fields (w : BitVec 96) : encLane (w.extractLsb' 86 10) (laneFields w) = w := by
  unfold encLane laneFields
  rw [show w.extractLsb' 86 10 ++ w.extractLsb' 82 4 = w.extractLsb' 82 14 from slice_join w 82 10 4]
  rw [show w.extractLsb' 82 14 ++ w.extractLsb' 71 11 = w.extractLsb' 71 25 from slice_join w 71 14 11]
  rw [show w.extractLsb' 71 25 ++ w.extractLsb' 60 11 = w.extractLsb' 60 36 from slice_join w 60 25 11]
  rw [show w.extractLsb' 60 36 ++ w.extractLsb' 49 11 = w.extractLsb' 49 47 from slice_join w 49 36 11]
  rw [show w.extractLsb' 49 47 ++ w.extractLsb' 38 11 = w.extractLsb' 38 58 from slice_join w 38 47 11]
  rw [show w.extractLsb' 38 58 ++ w.extractLsb' 27 11 = w.extractLsb' 27 69 from slice_join w 27 58 11]
  rw [show w.extractLsb' 27 69 ++ w.extractLsb' 21 6 = w.extractLsb' 21 75 from slice_join w 21 69 6]
  rw [show w.extractLsb' 21 75 ++ w.extractLsb' 15 6 = w.extractLsb' 15 81 from slice_join w 15 75 6]
  rw [show w.extractLsb' 15 81 ++ w.extractLsb' 14 1 = w.extractLsb' 14 82 from slice_join w 14 81 1]
  rw [show w.extractLsb' 14 82 ++ w.extractLsb' 11 3 = w.extractLsb' 11 85 from slice_join w 11 82 3]
  rw [show w.extractLsb' 11 85 ++ w.extractLsb' 7 4 = w.extractLsb' 7 89 from slice_join w 7 85 4]
  rw [show w.extractLsb' 7 89 ++ w.extractLsb' 6 1 = w.extractLsb' 6 90 from slice_join w 6 89 1]
  rw [show w.extractLsb' 6 90 ++ w.extractLsb' 3 3 = w.extractLsb' 3 93 from slice_join w 3 90 3]
  rw [show w.extractLsb' 3 93 ++ w.extractLsb' 0 3 = w.extractLsb' 0 96 from slice_join w 0 93 3]
  exact BitVec.extractLsb'_eq_self ..

/-! ### Words of a known major or opcode -/

theorem encSR_of {w : W32} {m : Nat} (h : (fMajor w).toNat = m) :
    encSR (BitVec.ofNat 6 m) (fD w) (fA w) (fB w) (fMinor w) = w := by
  subst h; rw [BitVec.ofNat_toNat, BitVec.setWidth_eq]; exact encSR_fields w

theorem encSI_of {w : W32} {m : Nat} (h : (fMajor w).toNat = m) : encSI (BitVec.ofNat 6 m) (fD w) (fA w) (fImm w) = w := by
  subst h; rw [BitVec.ofNat_toNat, BitVec.setWidth_eq]; exact encSI_fields w

theorem encSB_of {w : W32} {m : Nat} (h : (fMajor w).toNat = m) :
    encSB (BitVec.ofNat 6 m) (w.extractLsb' 22 4) (w.extractLsb' 0 22) = w := by
  subst h; rw [BitVec.ofNat_toNat, BitVec.setWidth_eq]; exact encSB_fields w

theorem encLane_of {w : BitVec 96} {op : Nat} (h : (w.extractLsb' 86 10).toNat = op) :
    encLane (BitVec.ofNat 10 op) (laneFields w) = w := by
  subst h; rw [BitVec.ofNat_toNat, BitVec.setWidth_eq]; exact encLane_fields w

/-! ### Bytes -/

theorem length_bytesOf (v n : Nat) : (bytesOf v n).length = n := by
  induction n generalizing v with
  | zero => rfl
  | succ n ih => simp [bytesOf, ih]

/-- Bytes read back as their number, modulo its width (R12). -/
theorem ofBytes_bytesOf (v n : Nat) : ofBytes (bytesOf v n) = v % 256 ^ n := by
  induction n generalizing v with
  | zero => simp [bytesOf, ofBytes, Nat.mod_one]
  | succ n ih =>
    have := Nat.mod_mul (x := v) (a := 256) (b := 256 ^ n)
    simp only [bytesOf, ofBytes, ih, BitVec.toNat_ofNat]
    rw [show 256 ^ (n + 1) = 256 * 256 ^ n by rw [Nat.pow_succ, Nat.mul_comm], this]

end Sys2Proof
end

