-- ==== Sys2Proof/Laws/State.lean ====
section
/-!
SUPPORT. What each update of the state leaves alone and what it writes, field by field, true by computation: a proof over a
meaning rewrites with these and never unfolds an update.
-/
namespace Sys2Proof.Machine

variable (d : Dev) (k : Nat)

@[simp] theorem setCluster_clusters (x : Cluster) : (d.setCluster k x).clusters = d.clusters.set k x := rfl
@[simp] theorem setCluster_frame (x : Cluster) :
    (d.setCluster k x).clock = d.clock ∧ (d.setCluster k x).tick = d.tick ∧ (d.setCluster k x).actor = d.actor ∧
    (d.setCluster k x).free = d.free ∧ (d.setCluster k x).nextId = d.nextId ∧ (d.setCluster k x).replies = d.replies ∧
    (d.setCluster k x).mem = d.mem ∧ (d.setCluster k x).poison = d.poison ∧ (d.setCluster k x).hbmErr = d.hbmErr ∧
    (d.setCluster k x).warps = d.warps ∧ (d.setCluster k x).crews = d.crews ∧ (d.setCluster k x).ops = d.ops ∧
    (d.setCluster k x).mops = d.mops ∧ (d.setCluster k x).pans = d.pans ∧ (d.setCluster k x).dies = d.dies ∧
    (d.setCluster k x).engines = d.engines ∧ (d.setCluster k x).nests = d.nests ∧ (d.setCluster k x).savedNests = d.savedNests ∧
    (d.setCluster k x).parts = d.parts ∧ (d.setCluster k x).queues = d.queues ∧ (d.setCluster k x).slots = d.slots ∧
    (d.setCluster k x).signals = d.signals ∧ (d.setCluster k x).ports = d.ports ∧ (d.setCluster k x).colls = d.colls ∧
    (d.setCluster k x).arrs = d.arrs ∧ (d.setCluster k x).outbox = d.outbox ∧ (d.setCluster k x).lateAcks = d.lateAcks ∧
    (d.setCluster k x).hostData = d.hostData ∧ (d.setCluster k x).cwroute = d.cwroute ∧ (d.setCluster k x).cwself = d.cwself ∧
    (d.setCluster k x).cwrq = d.cwrq ∧ (d.setCluster k x).msix = d.msix ∧ (d.setCluster k x).regs = d.regs := by
  refine ⟨rfl, rfl, rfl, rfl, rfl, rfl, rfl, rfl, rfl, rfl, rfl, rfl, rfl, rfl, rfl, rfl, rfl, rfl, rfl, rfl, rfl, rfl, rfl, rfl,
    rfl, rfl, rfl, rfl, rfl, rfl, rfl, rfl, rfl⟩

@[simp] theorem setPan_pans (x : Pan) : (d.setPan k x).pans = d.pans.set k x := rfl
@[simp] theorem setPan_frame (x : Pan) :
    (d.setPan k x).clock = d.clock ∧ (d.setPan k x).tick = d.tick ∧ (d.setPan k x).actor = d.actor ∧ (d.setPan k x).free = d.free ∧
    (d.setPan k x).nextId = d.nextId ∧ (d.setPan k x).replies = d.replies ∧ (d.setPan k x).mem = d.mem ∧
    (d.setPan k x).poison = d.poison ∧ (d.setPan k x).hbmErr = d.hbmErr ∧ (d.setPan k x).warps = d.warps ∧
    (d.setPan k x).crews = d.crews ∧ (d.setPan k x).clusters = d.clusters ∧ (d.setPan k x).ops = d.ops ∧
    (d.setPan k x).mops = d.mops ∧ (d.setPan k x).dies = d.dies ∧ (d.setPan k x).engines = d.engines ∧
    (d.setPan k x).nests = d.nests ∧ (d.setPan k x).savedNests = d.savedNests ∧ (d.setPan k x).parts = d.parts ∧
    (d.setPan k x).queues = d.queues ∧ (d.setPan k x).slots = d.slots ∧ (d.setPan k x).signals = d.signals ∧
    (d.setPan k x).ports = d.ports ∧ (d.setPan k x).colls = d.colls ∧ (d.setPan k x).arrs = d.arrs ∧
    (d.setPan k x).outbox = d.outbox ∧ (d.setPan k x).lateAcks = d.lateAcks ∧ (d.setPan k x).hostData = d.hostData ∧
    (d.setPan k x).cwroute = d.cwroute ∧ (d.setPan k x).cwself = d.cwself ∧ (d.setPan k x).cwrq = d.cwrq ∧
    (d.setPan k x).msix = d.msix ∧ (d.setPan k x).regs = d.regs := by
  refine ⟨rfl, rfl, rfl, rfl, rfl, rfl, rfl, rfl, rfl, rfl, rfl, rfl, rfl, rfl, rfl, rfl, rfl, rfl, rfl, rfl, rfl, rfl, rfl, rfl,
    rfl, rfl, rfl, rfl, rfl, rfl, rfl, rfl, rfl⟩

@[simp] theorem setDie_dies (x : Die) : (d.setDie k x).dies = d.dies.set k x := rfl
@[simp] theorem setDie_frame (x : Die) :
    (d.setDie k x).clock = d.clock ∧ (d.setDie k x).tick = d.tick ∧ (d.setDie k x).actor = d.actor ∧ (d.setDie k x).free = d.free ∧
    (d.setDie k x).nextId = d.nextId ∧ (d.setDie k x).replies = d.replies ∧ (d.setDie k x).mem = d.mem ∧
    (d.setDie k x).poison = d.poison ∧ (d.setDie k x).hbmErr = d.hbmErr ∧ (d.setDie k x).warps = d.warps ∧
    (d.setDie k x).crews = d.crews ∧ (d.setDie k x).clusters = d.clusters ∧ (d.setDie k x).ops = d.ops ∧
    (d.setDie k x).mops = d.mops ∧ (d.setDie k x).pans = d.pans ∧ (d.setDie k x).engines = d.engines ∧
    (d.setDie k x).nests = d.nests ∧ (d.setDie k x).savedNests = d.savedNests ∧ (d.setDie k x).parts = d.parts ∧
    (d.setDie k x).queues = d.queues ∧ (d.setDie k x).slots = d.slots ∧ (d.setDie k x).signals = d.signals ∧
    (d.setDie k x).ports = d.ports ∧ (d.setDie k x).colls = d.colls ∧ (d.setDie k x).arrs = d.arrs ∧
    (d.setDie k x).outbox = d.outbox ∧ (d.setDie k x).lateAcks = d.lateAcks ∧ (d.setDie k x).hostData = d.hostData ∧
    (d.setDie k x).cwroute = d.cwroute ∧ (d.setDie k x).cwself = d.cwself ∧ (d.setDie k x).cwrq = d.cwrq ∧
    (d.setDie k x).msix = d.msix ∧ (d.setDie k x).regs = d.regs := by
  refine ⟨rfl, rfl, rfl, rfl, rfl, rfl, rfl, rfl, rfl, rfl, rfl, rfl, rfl, rfl, rfl, rfl, rfl, rfl, rfl, rfl, rfl, rfl, rfl, rfl,
    rfl, rfl, rfl, rfl, rfl, rfl, rfl, rfl, rfl⟩

@[simp] theorem setEngine_engines (x : Engine) : (d.setEngine k x).engines = d.engines.set k x := rfl
@[simp] theorem setEngine_frame (x : Engine) :
    (d.setEngine k x).clock = d.clock ∧ (d.setEngine k x).tick = d.tick ∧ (d.setEngine k x).actor = d.actor ∧
    (d.setEngine k x).free = d.free ∧ (d.setEngine k x).nextId = d.nextId ∧ (d.setEngine k x).replies = d.replies ∧
    (d.setEngine k x).mem = d.mem ∧ (d.setEngine k x).poison = d.poison ∧ (d.setEngine k x).hbmErr = d.hbmErr ∧
    (d.setEngine k x).warps = d.warps ∧ (d.setEngine k x).crews = d.crews ∧ (d.setEngine k x).clusters = d.clusters ∧
    (d.setEngine k x).ops = d.ops ∧ (d.setEngine k x).mops = d.mops ∧ (d.setEngine k x).pans = d.pans ∧
    (d.setEngine k x).dies = d.dies ∧ (d.setEngine k x).nests = d.nests ∧ (d.setEngine k x).savedNests = d.savedNests ∧
    (d.setEngine k x).parts = d.parts ∧ (d.setEngine k x).queues = d.queues ∧ (d.setEngine k x).slots = d.slots ∧
    (d.setEngine k x).signals = d.signals ∧ (d.setEngine k x).ports = d.ports ∧ (d.setEngine k x).colls = d.colls ∧
    (d.setEngine k x).arrs = d.arrs ∧ (d.setEngine k x).outbox = d.outbox ∧ (d.setEngine k x).lateAcks = d.lateAcks ∧
    (d.setEngine k x).hostData = d.hostData ∧ (d.setEngine k x).cwroute = d.cwroute ∧ (d.setEngine k x).cwself = d.cwself ∧
    (d.setEngine k x).cwrq = d.cwrq ∧ (d.setEngine k x).msix = d.msix ∧ (d.setEngine k x).regs = d.regs := by
  refine ⟨rfl, rfl, rfl, rfl, rfl, rfl, rfl, rfl, rfl, rfl, rfl, rfl, rfl, rfl, rfl, rfl, rfl, rfl, rfl, rfl, rfl, rfl, rfl, rfl,
    rfl, rfl, rfl, rfl, rfl, rfl, rfl, rfl, rfl⟩

@[simp] theorem setPart_parts (x : Part) : (d.setPart k x).parts = d.parts.set k x := rfl
@[simp] theorem setPart_frame (x : Part) :
    (d.setPart k x).clock = d.clock ∧ (d.setPart k x).tick = d.tick ∧ (d.setPart k x).actor = d.actor ∧
    (d.setPart k x).free = d.free ∧ (d.setPart k x).nextId = d.nextId ∧ (d.setPart k x).replies = d.replies ∧
    (d.setPart k x).mem = d.mem ∧ (d.setPart k x).poison = d.poison ∧ (d.setPart k x).hbmErr = d.hbmErr ∧
    (d.setPart k x).warps = d.warps ∧ (d.setPart k x).crews = d.crews ∧ (d.setPart k x).clusters = d.clusters ∧
    (d.setPart k x).ops = d.ops ∧ (d.setPart k x).mops = d.mops ∧ (d.setPart k x).pans = d.pans ∧ (d.setPart k x).dies = d.dies ∧
    (d.setPart k x).engines = d.engines ∧ (d.setPart k x).nests = d.nests ∧ (d.setPart k x).savedNests = d.savedNests ∧
    (d.setPart k x).queues = d.queues ∧ (d.setPart k x).slots = d.slots ∧ (d.setPart k x).signals = d.signals ∧
    (d.setPart k x).ports = d.ports ∧ (d.setPart k x).colls = d.colls ∧ (d.setPart k x).arrs = d.arrs ∧
    (d.setPart k x).outbox = d.outbox ∧ (d.setPart k x).lateAcks = d.lateAcks ∧ (d.setPart k x).hostData = d.hostData ∧
    (d.setPart k x).cwroute = d.cwroute ∧ (d.setPart k x).cwself = d.cwself ∧ (d.setPart k x).cwrq = d.cwrq ∧
    (d.setPart k x).msix = d.msix ∧ (d.setPart k x).regs = d.regs := by
  refine ⟨rfl, rfl, rfl, rfl, rfl, rfl, rfl, rfl, rfl, rfl, rfl, rfl, rfl, rfl, rfl, rfl, rfl, rfl, rfl, rfl, rfl, rfl, rfl, rfl,
    rfl, rfl, rfl, rfl, rfl, rfl, rfl, rfl, rfl⟩

@[simp] theorem setQueue_queues (x : Queue) : (d.setQueue k x).queues = d.queues.set k x := rfl
@[simp] theorem setQueue_frame (x : Queue) :
    (d.setQueue k x).clock = d.clock ∧ (d.setQueue k x).tick = d.tick ∧ (d.setQueue k x).actor = d.actor ∧
    (d.setQueue k x).free = d.free ∧ (d.setQueue k x).nextId = d.nextId ∧ (d.setQueue k x).replies = d.replies ∧
    (d.setQueue k x).mem = d.mem ∧ (d.setQueue k x).poison = d.poison ∧ (d.setQueue k x).hbmErr = d.hbmErr ∧
    (d.setQueue k x).warps = d.warps ∧ (d.setQueue k x).crews = d.crews ∧ (d.setQueue k x).clusters = d.clusters ∧
    (d.setQueue k x).ops = d.ops ∧ (d.setQueue k x).mops = d.mops ∧ (d.setQueue k x).pans = d.pans ∧ (d.setQueue k x).dies = d.dies ∧
    (d.setQueue k x).engines = d.engines ∧ (d.setQueue k x).nests = d.nests ∧ (d.setQueue k x).savedNests = d.savedNests ∧
    (d.setQueue k x).parts = d.parts ∧ (d.setQueue k x).slots = d.slots ∧ (d.setQueue k x).signals = d.signals ∧
    (d.setQueue k x).ports = d.ports ∧ (d.setQueue k x).colls = d.colls ∧ (d.setQueue k x).arrs = d.arrs ∧
    (d.setQueue k x).outbox = d.outbox ∧ (d.setQueue k x).lateAcks = d.lateAcks ∧ (d.setQueue k x).hostData = d.hostData ∧
    (d.setQueue k x).cwroute = d.cwroute ∧ (d.setQueue k x).cwself = d.cwself ∧ (d.setQueue k x).cwrq = d.cwrq ∧
    (d.setQueue k x).msix = d.msix ∧ (d.setQueue k x).regs = d.regs := by
  refine ⟨rfl, rfl, rfl, rfl, rfl, rfl, rfl, rfl, rfl, rfl, rfl, rfl, rfl, rfl, rfl, rfl, rfl, rfl, rfl, rfl, rfl, rfl, rfl, rfl,
    rfl, rfl, rfl, rfl, rfl, rfl, rfl, rfl, rfl⟩

@[simp] theorem setSlot_slots (x : Slot) : (d.setSlot k x).slots = d.slots.set k x := rfl
@[simp] theorem setSlot_frame (x : Slot) :
    (d.setSlot k x).clock = d.clock ∧ (d.setSlot k x).tick = d.tick ∧ (d.setSlot k x).actor = d.actor ∧
    (d.setSlot k x).free = d.free ∧ (d.setSlot k x).nextId = d.nextId ∧ (d.setSlot k x).replies = d.replies ∧
    (d.setSlot k x).mem = d.mem ∧ (d.setSlot k x).poison = d.poison ∧ (d.setSlot k x).hbmErr = d.hbmErr ∧
    (d.setSlot k x).warps = d.warps ∧ (d.setSlot k x).crews = d.crews ∧ (d.setSlot k x).clusters = d.clusters ∧
    (d.setSlot k x).ops = d.ops ∧ (d.setSlot k x).mops = d.mops ∧ (d.setSlot k x).pans = d.pans ∧ (d.setSlot k x).dies = d.dies ∧
    (d.setSlot k x).engines = d.engines ∧ (d.setSlot k x).nests = d.nests ∧ (d.setSlot k x).savedNests = d.savedNests ∧
    (d.setSlot k x).parts = d.parts ∧ (d.setSlot k x).queues = d.queues ∧ (d.setSlot k x).signals = d.signals ∧
    (d.setSlot k x).ports = d.ports ∧ (d.setSlot k x).colls = d.colls ∧ (d.setSlot k x).arrs = d.arrs ∧
    (d.setSlot k x).outbox = d.outbox ∧ (d.setSlot k x).lateAcks = d.lateAcks ∧ (d.setSlot k x).hostData = d.hostData ∧
    (d.setSlot k x).cwroute = d.cwroute ∧ (d.setSlot k x).cwself = d.cwself ∧ (d.setSlot k x).cwrq = d.cwrq ∧
    (d.setSlot k x).msix = d.msix ∧ (d.setSlot k x).regs = d.regs := by
  refine ⟨rfl, rfl, rfl, rfl, rfl, rfl, rfl, rfl, rfl, rfl, rfl, rfl, rfl, rfl, rfl, rfl, rfl, rfl, rfl, rfl, rfl, rfl, rfl, rfl,
    rfl, rfl, rfl, rfl, rfl, rfl, rfl, rfl, rfl⟩

@[simp] theorem setPort_ports (x : Port) : (d.setPort k x).ports = d.ports.set k x := rfl
@[simp] theorem setPort_frame (x : Port) :
    (d.setPort k x).clock = d.clock ∧ (d.setPort k x).tick = d.tick ∧ (d.setPort k x).actor = d.actor ∧
    (d.setPort k x).free = d.free ∧ (d.setPort k x).nextId = d.nextId ∧ (d.setPort k x).replies = d.replies ∧
    (d.setPort k x).mem = d.mem ∧ (d.setPort k x).poison = d.poison ∧ (d.setPort k x).hbmErr = d.hbmErr ∧
    (d.setPort k x).warps = d.warps ∧ (d.setPort k x).crews = d.crews ∧ (d.setPort k x).clusters = d.clusters ∧
    (d.setPort k x).ops = d.ops ∧ (d.setPort k x).mops = d.mops ∧ (d.setPort k x).pans = d.pans ∧ (d.setPort k x).dies = d.dies ∧
    (d.setPort k x).engines = d.engines ∧ (d.setPort k x).nests = d.nests ∧ (d.setPort k x).savedNests = d.savedNests ∧
    (d.setPort k x).parts = d.parts ∧ (d.setPort k x).queues = d.queues ∧ (d.setPort k x).slots = d.slots ∧
    (d.setPort k x).signals = d.signals ∧ (d.setPort k x).colls = d.colls ∧ (d.setPort k x).arrs = d.arrs ∧
    (d.setPort k x).outbox = d.outbox ∧ (d.setPort k x).lateAcks = d.lateAcks ∧ (d.setPort k x).hostData = d.hostData ∧
    (d.setPort k x).cwroute = d.cwroute ∧ (d.setPort k x).cwself = d.cwself ∧ (d.setPort k x).cwrq = d.cwrq ∧
    (d.setPort k x).msix = d.msix ∧ (d.setPort k x).regs = d.regs := by
  refine ⟨rfl, rfl, rfl, rfl, rfl, rfl, rfl, rfl, rfl, rfl, rfl, rfl, rfl, rfl, rfl, rfl, rfl, rfl, rfl, rfl, rfl, rfl, rfl, rfl,
    rfl, rfl, rfl, rfl, rfl, rfl, rfl, rfl, rfl⟩

@[simp] theorem setWarp_warps (x : Warp) : (d.setWarp k x).warps = d.warps.set k x := rfl
@[simp] theorem setWarp_frame (x : Warp) :
    (d.setWarp k x).clock = d.clock ∧ (d.setWarp k x).tick = d.tick ∧ (d.setWarp k x).actor = d.actor ∧
    (d.setWarp k x).free = d.free ∧ (d.setWarp k x).nextId = d.nextId ∧ (d.setWarp k x).replies = d.replies ∧
    (d.setWarp k x).mem = d.mem ∧ (d.setWarp k x).poison = d.poison ∧ (d.setWarp k x).hbmErr = d.hbmErr ∧
    (d.setWarp k x).crews = d.crews ∧ (d.setWarp k x).clusters = d.clusters ∧ (d.setWarp k x).ops = d.ops ∧
    (d.setWarp k x).mops = d.mops ∧ (d.setWarp k x).pans = d.pans ∧ (d.setWarp k x).dies = d.dies ∧
    (d.setWarp k x).engines = d.engines ∧ (d.setWarp k x).nests = d.nests ∧ (d.setWarp k x).savedNests = d.savedNests ∧
    (d.setWarp k x).parts = d.parts ∧ (d.setWarp k x).queues = d.queues ∧ (d.setWarp k x).slots = d.slots ∧
    (d.setWarp k x).signals = d.signals ∧ (d.setWarp k x).ports = d.ports ∧ (d.setWarp k x).colls = d.colls ∧
    (d.setWarp k x).arrs = d.arrs ∧ (d.setWarp k x).outbox = d.outbox ∧ (d.setWarp k x).lateAcks = d.lateAcks ∧
    (d.setWarp k x).hostData = d.hostData ∧ (d.setWarp k x).cwroute = d.cwroute ∧ (d.setWarp k x).cwself = d.cwself ∧
    (d.setWarp k x).cwrq = d.cwrq ∧ (d.setWarp k x).msix = d.msix ∧ (d.setWarp k x).regs = d.regs := by
  refine ⟨rfl, rfl, rfl, rfl, rfl, rfl, rfl, rfl, rfl, rfl, rfl, rfl, rfl, rfl, rfl, rfl, rfl, rfl, rfl, rfl, rfl, rfl, rfl, rfl,
    rfl, rfl, rfl, rfl, rfl, rfl, rfl, rfl, rfl⟩

@[simp] theorem modWarp_warps (f : Warp → Warp) : (d.modWarp k f).warps = d.warps.modify k f := rfl
@[simp] theorem modWarp_frame (f : Warp → Warp) :
    (d.modWarp k f).clock = d.clock ∧ (d.modWarp k f).tick = d.tick ∧ (d.modWarp k f).actor = d.actor ∧
    (d.modWarp k f).free = d.free ∧ (d.modWarp k f).nextId = d.nextId ∧ (d.modWarp k f).replies = d.replies ∧
    (d.modWarp k f).mem = d.mem ∧ (d.modWarp k f).poison = d.poison ∧ (d.modWarp k f).hbmErr = d.hbmErr ∧
    (d.modWarp k f).crews = d.crews ∧ (d.modWarp k f).clusters = d.clusters ∧ (d.modWarp k f).ops = d.ops ∧
    (d.modWarp k f).mops = d.mops ∧ (d.modWarp k f).pans = d.pans ∧ (d.modWarp k f).dies = d.dies ∧
    (d.modWarp k f).engines = d.engines ∧ (d.modWarp k f).nests = d.nests ∧ (d.modWarp k f).savedNests = d.savedNests ∧
    (d.modWarp k f).parts = d.parts ∧ (d.modWarp k f).queues = d.queues ∧ (d.modWarp k f).slots = d.slots ∧
    (d.modWarp k f).signals = d.signals ∧ (d.modWarp k f).ports = d.ports ∧ (d.modWarp k f).colls = d.colls ∧
    (d.modWarp k f).arrs = d.arrs ∧ (d.modWarp k f).outbox = d.outbox ∧ (d.modWarp k f).lateAcks = d.lateAcks ∧
    (d.modWarp k f).hostData = d.hostData ∧ (d.modWarp k f).cwroute = d.cwroute ∧ (d.modWarp k f).cwself = d.cwself ∧
    (d.modWarp k f).cwrq = d.cwrq ∧ (d.modWarp k f).msix = d.msix ∧ (d.modWarp k f).regs = d.regs := by
  refine ⟨rfl, rfl, rfl, rfl, rfl, rfl, rfl, rfl, rfl, rfl, rfl, rfl, rfl, rfl, rfl, rfl, rfl, rfl, rfl, rfl, rfl, rfl, rfl, rfl,
    rfl, rfl, rfl, rfl, rfl, rfl, rfl, rfl, rfl⟩

@[simp] theorem setCrew_crews (x : Crew) : (d.setCrew k x).crews = d.crews.set k x := rfl
@[simp] theorem setCrew_frame (x : Crew) :
    (d.setCrew k x).clock = d.clock ∧ (d.setCrew k x).tick = d.tick ∧ (d.setCrew k x).actor = d.actor ∧
    (d.setCrew k x).free = d.free ∧ (d.setCrew k x).nextId = d.nextId ∧ (d.setCrew k x).replies = d.replies ∧
    (d.setCrew k x).mem = d.mem ∧ (d.setCrew k x).poison = d.poison ∧ (d.setCrew k x).hbmErr = d.hbmErr ∧
    (d.setCrew k x).warps = d.warps ∧ (d.setCrew k x).clusters = d.clusters ∧ (d.setCrew k x).ops = d.ops ∧
    (d.setCrew k x).mops = d.mops ∧ (d.setCrew k x).pans = d.pans ∧ (d.setCrew k x).dies = d.dies ∧
    (d.setCrew k x).engines = d.engines ∧ (d.setCrew k x).nests = d.nests ∧ (d.setCrew k x).savedNests = d.savedNests ∧
    (d.setCrew k x).parts = d.parts ∧ (d.setCrew k x).queues = d.queues ∧ (d.setCrew k x).slots = d.slots ∧
    (d.setCrew k x).signals = d.signals ∧ (d.setCrew k x).ports = d.ports ∧ (d.setCrew k x).colls = d.colls ∧
    (d.setCrew k x).arrs = d.arrs ∧ (d.setCrew k x).outbox = d.outbox ∧ (d.setCrew k x).lateAcks = d.lateAcks ∧
    (d.setCrew k x).hostData = d.hostData ∧ (d.setCrew k x).cwroute = d.cwroute ∧ (d.setCrew k x).cwself = d.cwself ∧
    (d.setCrew k x).cwrq = d.cwrq ∧ (d.setCrew k x).msix = d.msix ∧ (d.setCrew k x).regs = d.regs := by
  refine ⟨rfl, rfl, rfl, rfl, rfl, rfl, rfl, rfl, rfl, rfl, rfl, rfl, rfl, rfl, rfl, rfl, rfl, rfl, rfl, rfl, rfl, rfl, rfl, rfl,
    rfl, rfl, rfl, rfl, rfl, rfl, rfl, rfl, rfl⟩

@[simp] theorem modCrew_crews (f : Crew → Crew) : (d.modCrew k f).crews = d.crews.modify k f := rfl
@[simp] theorem modCrew_frame (f : Crew → Crew) :
    (d.modCrew k f).clock = d.clock ∧ (d.modCrew k f).tick = d.tick ∧ (d.modCrew k f).actor = d.actor ∧
    (d.modCrew k f).free = d.free ∧ (d.modCrew k f).nextId = d.nextId ∧ (d.modCrew k f).replies = d.replies ∧
    (d.modCrew k f).mem = d.mem ∧ (d.modCrew k f).poison = d.poison ∧ (d.modCrew k f).hbmErr = d.hbmErr ∧
    (d.modCrew k f).warps = d.warps ∧ (d.modCrew k f).clusters = d.clusters ∧ (d.modCrew k f).ops = d.ops ∧
    (d.modCrew k f).mops = d.mops ∧ (d.modCrew k f).pans = d.pans ∧ (d.modCrew k f).dies = d.dies ∧
    (d.modCrew k f).engines = d.engines ∧ (d.modCrew k f).nests = d.nests ∧ (d.modCrew k f).savedNests = d.savedNests ∧
    (d.modCrew k f).parts = d.parts ∧ (d.modCrew k f).queues = d.queues ∧ (d.modCrew k f).slots = d.slots ∧
    (d.modCrew k f).signals = d.signals ∧ (d.modCrew k f).ports = d.ports ∧ (d.modCrew k f).colls = d.colls ∧
    (d.modCrew k f).arrs = d.arrs ∧ (d.modCrew k f).outbox = d.outbox ∧ (d.modCrew k f).lateAcks = d.lateAcks ∧
    (d.modCrew k f).hostData = d.hostData ∧ (d.modCrew k f).cwroute = d.cwroute ∧ (d.modCrew k f).cwself = d.cwself ∧
    (d.modCrew k f).cwrq = d.cwrq ∧ (d.modCrew k f).msix = d.msix ∧ (d.modCrew k f).regs = d.regs := by
  refine ⟨rfl, rfl, rfl, rfl, rfl, rfl, rfl, rfl, rfl, rfl, rfl, rfl, rfl, rfl, rfl, rfl, rfl, rfl, rfl, rfl, rfl, rfl, rfl, rfl,
    rfl, rfl, rfl, rfl, rfl, rfl, rfl, rfl, rfl⟩

@[simp] theorem setNest_nests (x : Nest) : (d.setNest k x).nests = d.nests.set k x := rfl
@[simp] theorem setNest_frame (x : Nest) :
    (d.setNest k x).clock = d.clock ∧ (d.setNest k x).tick = d.tick ∧ (d.setNest k x).actor = d.actor ∧
    (d.setNest k x).free = d.free ∧ (d.setNest k x).nextId = d.nextId ∧ (d.setNest k x).replies = d.replies ∧
    (d.setNest k x).mem = d.mem ∧ (d.setNest k x).poison = d.poison ∧ (d.setNest k x).hbmErr = d.hbmErr ∧
    (d.setNest k x).warps = d.warps ∧ (d.setNest k x).crews = d.crews ∧ (d.setNest k x).clusters = d.clusters ∧
    (d.setNest k x).ops = d.ops ∧ (d.setNest k x).mops = d.mops ∧ (d.setNest k x).pans = d.pans ∧ (d.setNest k x).dies = d.dies ∧
    (d.setNest k x).engines = d.engines ∧ (d.setNest k x).savedNests = d.savedNests ∧ (d.setNest k x).parts = d.parts ∧
    (d.setNest k x).queues = d.queues ∧ (d.setNest k x).slots = d.slots ∧ (d.setNest k x).signals = d.signals ∧
    (d.setNest k x).ports = d.ports ∧ (d.setNest k x).colls = d.colls ∧ (d.setNest k x).arrs = d.arrs ∧
    (d.setNest k x).outbox = d.outbox ∧ (d.setNest k x).lateAcks = d.lateAcks ∧ (d.setNest k x).hostData = d.hostData ∧
    (d.setNest k x).cwroute = d.cwroute ∧ (d.setNest k x).cwself = d.cwself ∧ (d.setNest k x).cwrq = d.cwrq ∧
    (d.setNest k x).msix = d.msix ∧ (d.setNest k x).regs = d.regs := by
  refine ⟨rfl, rfl, rfl, rfl, rfl, rfl, rfl, rfl, rfl, rfl, rfl, rfl, rfl, rfl, rfl, rfl, rfl, rfl, rfl, rfl, rfl, rfl, rfl, rfl,
    rfl, rfl, rfl, rfl, rfl, rfl, rfl, rfl, rfl⟩

@[simp] theorem modOp_ops (f : MemOp → MemOp) : (d.modOp k f).ops = d.ops.modify k f := rfl
@[simp] theorem modOp_frame (f : MemOp → MemOp) :
    (d.modOp k f).clock = d.clock ∧ (d.modOp k f).tick = d.tick ∧ (d.modOp k f).actor = d.actor ∧ (d.modOp k f).free = d.free ∧
    (d.modOp k f).nextId = d.nextId ∧ (d.modOp k f).replies = d.replies ∧ (d.modOp k f).mem = d.mem ∧
    (d.modOp k f).poison = d.poison ∧ (d.modOp k f).hbmErr = d.hbmErr ∧ (d.modOp k f).warps = d.warps ∧
    (d.modOp k f).crews = d.crews ∧ (d.modOp k f).clusters = d.clusters ∧ (d.modOp k f).mops = d.mops ∧ (d.modOp k f).pans = d.pans ∧
    (d.modOp k f).dies = d.dies ∧ (d.modOp k f).engines = d.engines ∧ (d.modOp k f).nests = d.nests ∧
    (d.modOp k f).savedNests = d.savedNests ∧ (d.modOp k f).parts = d.parts ∧ (d.modOp k f).queues = d.queues ∧
    (d.modOp k f).slots = d.slots ∧ (d.modOp k f).signals = d.signals ∧ (d.modOp k f).ports = d.ports ∧
    (d.modOp k f).colls = d.colls ∧ (d.modOp k f).arrs = d.arrs ∧ (d.modOp k f).outbox = d.outbox ∧
    (d.modOp k f).lateAcks = d.lateAcks ∧ (d.modOp k f).hostData = d.hostData ∧ (d.modOp k f).cwroute = d.cwroute ∧
    (d.modOp k f).cwself = d.cwself ∧ (d.modOp k f).cwrq = d.cwrq ∧ (d.modOp k f).msix = d.msix ∧ (d.modOp k f).regs = d.regs := by
  refine ⟨rfl, rfl, rfl, rfl, rfl, rfl, rfl, rfl, rfl, rfl, rfl, rfl, rfl, rfl, rfl, rfl, rfl, rfl, rfl, rfl, rfl, rfl, rfl, rfl,
    rfl, rfl, rfl, rfl, rfl, rfl, rfl, rfl, rfl⟩

@[simp] theorem setPipe_clusters (p : Nat) (x : Pipe) : (d.setPipe k p x).clusters = d.clusters.set k { d.cluster k with pipes := (d.cluster k).pipes.set p x } := rfl
@[simp] theorem setPipe_frame (p : Nat) (x : Pipe) :
    (d.setPipe k p x).clock = d.clock ∧ (d.setPipe k p x).tick = d.tick ∧ (d.setPipe k p x).actor = d.actor ∧
    (d.setPipe k p x).free = d.free ∧ (d.setPipe k p x).nextId = d.nextId ∧ (d.setPipe k p x).replies = d.replies ∧
    (d.setPipe k p x).mem = d.mem ∧ (d.setPipe k p x).poison = d.poison ∧ (d.setPipe k p x).hbmErr = d.hbmErr ∧
    (d.setPipe k p x).warps = d.warps ∧ (d.setPipe k p x).crews = d.crews ∧ (d.setPipe k p x).ops = d.ops ∧
    (d.setPipe k p x).mops = d.mops ∧ (d.setPipe k p x).pans = d.pans ∧ (d.setPipe k p x).dies = d.dies ∧
    (d.setPipe k p x).engines = d.engines ∧ (d.setPipe k p x).nests = d.nests ∧ (d.setPipe k p x).savedNests = d.savedNests ∧
    (d.setPipe k p x).parts = d.parts ∧ (d.setPipe k p x).queues = d.queues ∧ (d.setPipe k p x).slots = d.slots ∧
    (d.setPipe k p x).signals = d.signals ∧ (d.setPipe k p x).ports = d.ports ∧ (d.setPipe k p x).colls = d.colls ∧
    (d.setPipe k p x).arrs = d.arrs ∧ (d.setPipe k p x).outbox = d.outbox ∧ (d.setPipe k p x).lateAcks = d.lateAcks ∧
    (d.setPipe k p x).hostData = d.hostData ∧ (d.setPipe k p x).cwroute = d.cwroute ∧ (d.setPipe k p x).cwself = d.cwself ∧
    (d.setPipe k p x).cwrq = d.cwrq ∧ (d.setPipe k p x).msix = d.msix ∧ (d.setPipe k p x).regs = d.regs := by
  refine ⟨rfl, rfl, rfl, rfl, rfl, rfl, rfl, rfl, rfl, rfl, rfl, rfl, rfl, rfl, rfl, rfl, rfl, rfl, rfl, rfl, rfl, rfl, rfl, rfl,
    rfl, rfl, rfl, rfl, rfl, rfl, rfl, rfl, rfl⟩

@[simp] theorem raise_msix : (d.raise k).msix = d.msix.set k (d.msix.getD k 0 + 1) := rfl
@[simp] theorem raise_frame :
    (d.raise k).clock = d.clock ∧ (d.raise k).tick = d.tick ∧ (d.raise k).actor = d.actor ∧ (d.raise k).free = d.free ∧
    (d.raise k).nextId = d.nextId ∧ (d.raise k).replies = d.replies ∧ (d.raise k).mem = d.mem ∧ (d.raise k).poison = d.poison ∧
    (d.raise k).hbmErr = d.hbmErr ∧ (d.raise k).warps = d.warps ∧ (d.raise k).crews = d.crews ∧ (d.raise k).clusters = d.clusters ∧
    (d.raise k).ops = d.ops ∧ (d.raise k).mops = d.mops ∧ (d.raise k).pans = d.pans ∧ (d.raise k).dies = d.dies ∧
    (d.raise k).engines = d.engines ∧ (d.raise k).nests = d.nests ∧ (d.raise k).savedNests = d.savedNests ∧
    (d.raise k).parts = d.parts ∧ (d.raise k).queues = d.queues ∧ (d.raise k).slots = d.slots ∧ (d.raise k).signals = d.signals ∧
    (d.raise k).ports = d.ports ∧ (d.raise k).colls = d.colls ∧ (d.raise k).arrs = d.arrs ∧ (d.raise k).outbox = d.outbox ∧
    (d.raise k).lateAcks = d.lateAcks ∧ (d.raise k).hostData = d.hostData ∧ (d.raise k).cwroute = d.cwroute ∧
    (d.raise k).cwself = d.cwself ∧ (d.raise k).cwrq = d.cwrq ∧ (d.raise k).regs = d.regs := by
  refine ⟨rfl, rfl, rfl, rfl, rfl, rfl, rfl, rfl, rfl, rfl, rfl, rfl, rfl, rfl, rfl, rfl, rfl, rfl, rfl, rfl, rfl, rfl, rfl, rfl,
    rfl, rfl, rfl, rfl, rfl, rfl, rfl, rfl, rfl⟩

/-! ### A unit read after a unit is set -/

@[simp] theorem cluster_setCluster (x : Cluster) : (d.setCluster k x).cluster k = x := by simp [Dev.cluster, Tab.getD]
theorem cluster_setCluster_ne (j : Nat) (x : Cluster) (h : j ≠ k) : (d.setCluster k x).cluster j = d.cluster j := by simp [Dev.cluster, Tab.getD, h]
@[simp] theorem pan_setPan (x : Pan) : (d.setPan k x).pan k = x := by simp [Dev.pan, Tab.getD]
theorem pan_setPan_ne (j : Nat) (x : Pan) (h : j ≠ k) : (d.setPan k x).pan j = d.pan j := by simp [Dev.pan, Tab.getD, h]
@[simp] theorem die_setDie (x : Die) : (d.setDie k x).die k = x := by simp [Dev.die, Tab.getD]
theorem die_setDie_ne (j : Nat) (x : Die) (h : j ≠ k) : (d.setDie k x).die j = d.die j := by simp [Dev.die, Tab.getD, h]
@[simp] theorem engine_setEngine (x : Engine) : (d.setEngine k x).engine k = x := by simp [Dev.engine, Tab.getD]
theorem engine_setEngine_ne (j : Nat) (x : Engine) (h : j ≠ k) : (d.setEngine k x).engine j = d.engine j := by simp [Dev.engine, Tab.getD, h]
@[simp] theorem part_setPart (x : Part) : (d.setPart k x).part k = x := by simp [Dev.part, Tab.getD]
theorem part_setPart_ne (j : Nat) (x : Part) (h : j ≠ k) : (d.setPart k x).part j = d.part j := by simp [Dev.part, Tab.getD, h]
@[simp] theorem queue_setQueue (x : Queue) : (d.setQueue k x).queue k = x := by simp [Dev.queue, Tab.getD]
theorem queue_setQueue_ne (j : Nat) (x : Queue) (h : j ≠ k) : (d.setQueue k x).queue j = d.queue j := by simp [Dev.queue, Tab.getD, h]
@[simp] theorem slot_setSlot (x : Slot) : (d.setSlot k x).slot k = x := by simp [Dev.slot, Tab.getD]
theorem slot_setSlot_ne (j : Nat) (x : Slot) (h : j ≠ k) : (d.setSlot k x).slot j = d.slot j := by simp [Dev.slot, Tab.getD, h]
@[simp] theorem port_setPort (x : Port) : (d.setPort k x).port k = x := by simp [Dev.port, Tab.getD]
theorem port_setPort_ne (j : Nat) (x : Port) (h : j ≠ k) : (d.setPort k x).port j = d.port j := by simp [Dev.port, Tab.getD, h]

@[simp] theorem pipe_setPipe (p : Nat) (x : Pipe) : (d.setPipe k p x).pipe k p = x := by
  simp [Dev.pipe, Dev.setPipe, Tab.getD]

/-! ### Registers of a warp -/

section
variable (w : Warp)

@[simp] theorem setS_frame (i : Nat) (v : W64) :
    (w.setS i v).cluster = w.cluster ∧ (w.setS i v).wslot = w.wslot ∧ (w.setS i v).pipe = w.pipe ∧ (w.setS i v).cslot = w.cslot ∧
    (w.setS i v).wcrew = w.wcrew ∧ (w.setS i v).spc = w.spc ∧ (w.setS i v).q = w.q ∧ (w.setS i v).vregs = w.vregs ∧
    (w.setS i v).preds = w.preds ∧ (w.setS i v).wstat = w.wstat ∧ (w.setS i v).nmode = w.nmode ∧ (w.setS i v).lanes = w.lanes ∧
    (w.setS i v).valloc = w.valloc ∧ (w.setS i v).queue = w.queue ∧ (w.setS i v).lword = w.lword ∧ (w.setS i v).blocks = w.blocks ∧
    (w.setS i v).drains = w.drains ∧ (w.setS i v).outG = w.outG ∧ (w.setS i v).outX = w.outX ∧ (w.setS i v).outA = w.outA ∧
    (w.setS i v).outT = w.outT ∧ (w.setS i v).acks = w.acks ∧ (w.setS i v).pendS = w.pendS ∧ (w.setS i v).pendV = w.pendV ∧
    (w.setS i v).acquires = w.acquires ∧ (w.setS i v).wph = w.wph ∧ (w.setS i v).lastBatch = w.lastBatch ∧
    (w.setS i v).openOps = w.openOps ∧ (w.setS i v).batches = w.batches ∧ (w.setS i v).batchErr = w.batchErr ∧
    (w.setS i v).park = w.park ∧ (w.setS i v).lpark = w.lpark ∧ (w.setS i v).live = w.live ∧ (w.setS i v).bind = w.bind ∧
    (w.setS i v).stop = w.stop ∧ (w.setS i v).xs = w.xs ∧ (w.setS i v).xl = w.xl ∧ (w.setS i v).rd = w.rd ∧ (w.setS i v).rl = w.rl ∧
    (w.setS i v).install = w.install ∧ (w.setS i v).collIn = w.collIn ∧ (w.setS i v).ready = w.ready ∧ (w.setS i v).rank = w.rank ∧
    (w.setS i v).lready = w.lready := by
  unfold Warp.setS; split <;> simp

@[simp] theorem setQ_frame (i : Nat) (v : Bool) :
    (w.setQ i v).cluster = w.cluster ∧ (w.setQ i v).wslot = w.wslot ∧ (w.setQ i v).pipe = w.pipe ∧ (w.setQ i v).cslot = w.cslot ∧
    (w.setQ i v).wcrew = w.wcrew ∧ (w.setQ i v).spc = w.spc ∧ (w.setQ i v).sregs = w.sregs ∧ (w.setQ i v).vregs = w.vregs ∧
    (w.setQ i v).preds = w.preds ∧ (w.setQ i v).wstat = w.wstat ∧ (w.setQ i v).nmode = w.nmode ∧ (w.setQ i v).lanes = w.lanes ∧
    (w.setQ i v).valloc = w.valloc ∧ (w.setQ i v).queue = w.queue ∧ (w.setQ i v).lword = w.lword ∧ (w.setQ i v).blocks = w.blocks ∧
    (w.setQ i v).drains = w.drains ∧ (w.setQ i v).outG = w.outG ∧ (w.setQ i v).outX = w.outX ∧ (w.setQ i v).outA = w.outA ∧
    (w.setQ i v).outT = w.outT ∧ (w.setQ i v).acks = w.acks ∧ (w.setQ i v).pendS = w.pendS ∧ (w.setQ i v).pendV = w.pendV ∧
    (w.setQ i v).acquires = w.acquires ∧ (w.setQ i v).wph = w.wph ∧ (w.setQ i v).lastBatch = w.lastBatch ∧
    (w.setQ i v).openOps = w.openOps ∧ (w.setQ i v).batches = w.batches ∧ (w.setQ i v).batchErr = w.batchErr ∧
    (w.setQ i v).park = w.park ∧ (w.setQ i v).lpark = w.lpark ∧ (w.setQ i v).live = w.live ∧ (w.setQ i v).bind = w.bind ∧
    (w.setQ i v).stop = w.stop ∧ (w.setQ i v).xs = w.xs ∧ (w.setQ i v).xl = w.xl ∧ (w.setQ i v).rd = w.rd ∧ (w.setQ i v).rl = w.rl ∧
    (w.setQ i v).install = w.install ∧ (w.setQ i v).collIn = w.collIn ∧ (w.setQ i v).ready = w.ready ∧ (w.setQ i v).rank = w.rank ∧
    (w.setQ i v).lready = w.lready := by
  unfold Warp.setQ; split <;> simp

@[simp] theorem orFlags_frame (f : W64) :
    (w.orFlags f).cluster = w.cluster ∧ (w.orFlags f).wslot = w.wslot ∧ (w.orFlags f).pipe = w.pipe ∧ (w.orFlags f).cslot = w.cslot ∧
    (w.orFlags f).wcrew = w.wcrew ∧ (w.orFlags f).spc = w.spc ∧ (w.orFlags f).sregs = w.sregs ∧ (w.orFlags f).q = w.q ∧
    (w.orFlags f).vregs = w.vregs ∧ (w.orFlags f).preds = w.preds ∧ (w.orFlags f).nmode = w.nmode ∧ (w.orFlags f).lanes = w.lanes ∧
    (w.orFlags f).valloc = w.valloc ∧ (w.orFlags f).queue = w.queue ∧ (w.orFlags f).lword = w.lword ∧
    (w.orFlags f).blocks = w.blocks ∧ (w.orFlags f).drains = w.drains ∧ (w.orFlags f).outG = w.outG ∧ (w.orFlags f).outX = w.outX ∧
    (w.orFlags f).outA = w.outA ∧ (w.orFlags f).outT = w.outT ∧ (w.orFlags f).acks = w.acks ∧ (w.orFlags f).pendS = w.pendS ∧
    (w.orFlags f).pendV = w.pendV ∧ (w.orFlags f).acquires = w.acquires ∧ (w.orFlags f).wph = w.wph ∧
    (w.orFlags f).lastBatch = w.lastBatch ∧ (w.orFlags f).openOps = w.openOps ∧ (w.orFlags f).batches = w.batches ∧
    (w.orFlags f).batchErr = w.batchErr ∧ (w.orFlags f).park = w.park ∧ (w.orFlags f).lpark = w.lpark ∧ (w.orFlags f).live = w.live ∧
    (w.orFlags f).bind = w.bind ∧ (w.orFlags f).stop = w.stop ∧ (w.orFlags f).xs = w.xs ∧ (w.orFlags f).xl = w.xl ∧
    (w.orFlags f).rd = w.rd ∧ (w.orFlags f).rl = w.rl ∧ (w.orFlags f).install = w.install ∧ (w.orFlags f).collIn = w.collIn ∧
    (w.orFlags f).ready = w.ready ∧ (w.orFlags f).rank = w.rank ∧ (w.orFlags f).lready = w.lready := by
  simp [Warp.orFlags]

@[simp] theorem consume_frame (g : Nat) :
    (w.consume g).cluster = w.cluster ∧ (w.consume g).wslot = w.wslot ∧ (w.consume g).pipe = w.pipe ∧ (w.consume g).cslot = w.cslot ∧
    (w.consume g).wcrew = w.wcrew ∧ (w.consume g).spc = w.spc ∧ (w.consume g).sregs = w.sregs ∧ (w.consume g).q = w.q ∧
    (w.consume g).vregs = w.vregs ∧ (w.consume g).preds = w.preds ∧ (w.consume g).wstat = w.wstat ∧ (w.consume g).nmode = w.nmode ∧
    (w.consume g).lanes = w.lanes ∧ (w.consume g).valloc = w.valloc ∧ (w.consume g).queue = w.queue ∧ (w.consume g).lword = w.lword ∧
    (w.consume g).blocks = w.blocks ∧ (w.consume g).drains = w.drains ∧ (w.consume g).outG = w.outG ∧ (w.consume g).outX = w.outX ∧
    (w.consume g).outA = w.outA ∧ (w.consume g).outT = w.outT ∧ (w.consume g).acks = w.acks ∧ (w.consume g).pendS = w.pendS ∧
    (w.consume g).pendV = w.pendV ∧ (w.consume g).acquires = w.acquires ∧ (w.consume g).lastBatch = w.lastBatch ∧
    (w.consume g).openOps = w.openOps ∧ (w.consume g).batches = w.batches ∧ (w.consume g).batchErr = w.batchErr ∧
    (w.consume g).park = w.park ∧ (w.consume g).lpark = w.lpark ∧ (w.consume g).live = w.live ∧ (w.consume g).bind = w.bind ∧
    (w.consume g).stop = w.stop ∧ (w.consume g).xs = w.xs ∧ (w.consume g).xl = w.xl ∧ (w.consume g).rd = w.rd ∧
    (w.consume g).rl = w.rl ∧ (w.consume g).install = w.install ∧ (w.consume g).collIn = w.collIn ∧ (w.consume g).ready = w.ready ∧
    (w.consume g).rank = w.rank ∧ (w.consume g).lready = w.lready := by
  simp [Warp.consume]

@[simp] theorem goto_frame (now : Nat) (a : W64) :
    (w.goto now a).cluster = w.cluster ∧ (w.goto now a).wslot = w.wslot ∧ (w.goto now a).pipe = w.pipe ∧
    (w.goto now a).cslot = w.cslot ∧ (w.goto now a).wcrew = w.wcrew ∧ (w.goto now a).sregs = w.sregs ∧ (w.goto now a).q = w.q ∧
    (w.goto now a).vregs = w.vregs ∧ (w.goto now a).preds = w.preds ∧ (w.goto now a).wstat = w.wstat ∧
    (w.goto now a).nmode = w.nmode ∧ (w.goto now a).lanes = w.lanes ∧ (w.goto now a).valloc = w.valloc ∧
    (w.goto now a).queue = w.queue ∧ (w.goto now a).lword = w.lword ∧ (w.goto now a).blocks = w.blocks ∧
    (w.goto now a).drains = w.drains ∧ (w.goto now a).outG = w.outG ∧ (w.goto now a).outX = w.outX ∧ (w.goto now a).outA = w.outA ∧
    (w.goto now a).outT = w.outT ∧ (w.goto now a).acks = w.acks ∧ (w.goto now a).pendS = w.pendS ∧ (w.goto now a).pendV = w.pendV ∧
    (w.goto now a).acquires = w.acquires ∧ (w.goto now a).wph = w.wph ∧ (w.goto now a).lastBatch = w.lastBatch ∧
    (w.goto now a).openOps = w.openOps ∧ (w.goto now a).batches = w.batches ∧ (w.goto now a).batchErr = w.batchErr ∧
    (w.goto now a).lpark = w.lpark ∧ (w.goto now a).live = w.live ∧ (w.goto now a).bind = w.bind ∧ (w.goto now a).stop = w.stop ∧
    (w.goto now a).xl = w.xl ∧ (w.goto now a).rd = Reads.empty ∧ (w.goto now a).rl = w.rl ∧ (w.goto now a).install = w.install ∧
    (w.goto now a).collIn = w.collIn ∧ (w.goto now a).lready = w.lready := by
  simp [Warp.goto]

@[simp] theorem advance_frame (now n : Nat) :
    (w.advance now n).cluster = w.cluster ∧ (w.advance now n).wslot = w.wslot ∧ (w.advance now n).pipe = w.pipe ∧
    (w.advance now n).cslot = w.cslot ∧ (w.advance now n).wcrew = w.wcrew ∧ (w.advance now n).sregs = w.sregs ∧
    (w.advance now n).q = w.q ∧ (w.advance now n).vregs = w.vregs ∧ (w.advance now n).preds = w.preds ∧
    (w.advance now n).wstat = w.wstat ∧ (w.advance now n).nmode = w.nmode ∧ (w.advance now n).lanes = w.lanes ∧
    (w.advance now n).valloc = w.valloc ∧ (w.advance now n).queue = w.queue ∧ (w.advance now n).lword = w.lword ∧
    (w.advance now n).blocks = w.blocks ∧ (w.advance now n).drains = w.drains ∧ (w.advance now n).outG = w.outG ∧
    (w.advance now n).outX = w.outX ∧ (w.advance now n).outA = w.outA ∧ (w.advance now n).outT = w.outT ∧
    (w.advance now n).acks = w.acks ∧ (w.advance now n).pendS = w.pendS ∧ (w.advance now n).pendV = w.pendV ∧
    (w.advance now n).acquires = w.acquires ∧ (w.advance now n).wph = w.wph ∧ (w.advance now n).lastBatch = w.lastBatch ∧
    (w.advance now n).openOps = w.openOps ∧ (w.advance now n).batches = w.batches ∧ (w.advance now n).batchErr = w.batchErr ∧
    (w.advance now n).lpark = w.lpark ∧ (w.advance now n).live = w.live ∧ (w.advance now n).bind = w.bind ∧
    (w.advance now n).stop = w.stop ∧ (w.advance now n).xl = w.xl ∧ (w.advance now n).rd = Reads.empty ∧ (w.advance now n).rl = w.rl ∧
    (w.advance now n).install = w.install ∧ (w.advance now n).collIn = w.collIn ∧ (w.advance now n).lready = w.lready := by
  simp [Warp.advance]

@[simp] theorem release_frame (i : Nat) :
    (w.release i).cluster = w.cluster ∧ (w.release i).wslot = w.wslot ∧ (w.release i).pipe = w.pipe ∧ (w.release i).cslot = w.cslot ∧
    (w.release i).wcrew = w.wcrew ∧ (w.release i).spc = w.spc ∧ (w.release i).sregs = w.sregs ∧ (w.release i).q = w.q ∧
    (w.release i).vregs = w.vregs ∧ (w.release i).preds = w.preds ∧ (w.release i).wstat = w.wstat ∧ (w.release i).nmode = w.nmode ∧
    (w.release i).lanes = w.lanes ∧ (w.release i).valloc = w.valloc ∧ (w.release i).queue = w.queue ∧ (w.release i).lword = w.lword ∧
    (w.release i).blocks = w.blocks ∧ (w.release i).drains = w.drains ∧ (w.release i).outG = w.outG ∧ (w.release i).outX = w.outX ∧
    (w.release i).outA = w.outA ∧ (w.release i).outT = w.outT ∧ (w.release i).acks = w.acks ∧ (w.release i).acquires = w.acquires ∧
    (w.release i).wph = w.wph ∧ (w.release i).lastBatch = w.lastBatch ∧ (w.release i).openOps = w.openOps ∧
    (w.release i).batches = w.batches ∧ (w.release i).batchErr = w.batchErr ∧ (w.release i).park = w.park ∧
    (w.release i).lpark = w.lpark ∧ (w.release i).live = w.live ∧ (w.release i).bind = w.bind ∧ (w.release i).stop = w.stop ∧
    (w.release i).xs = w.xs ∧ (w.release i).xl = w.xl ∧ (w.release i).rd = w.rd ∧ (w.release i).rl = w.rl ∧
    (w.release i).install = w.install ∧ (w.release i).collIn = w.collIn ∧ (w.release i).ready = w.ready ∧
    (w.release i).rank = w.rank ∧ (w.release i).lready = w.lready := by
  simp [Warp.release]

@[simp] theorem setV_frame (r : Nat) (l : List (Nat × Nat)) :
    (w.setV r l).cluster = w.cluster ∧ (w.setV r l).wslot = w.wslot ∧ (w.setV r l).pipe = w.pipe ∧ (w.setV r l).cslot = w.cslot ∧
    (w.setV r l).wcrew = w.wcrew ∧ (w.setV r l).spc = w.spc ∧ (w.setV r l).sregs = w.sregs ∧ (w.setV r l).q = w.q ∧
    (w.setV r l).preds = w.preds ∧ (w.setV r l).wstat = w.wstat ∧ (w.setV r l).nmode = w.nmode ∧ (w.setV r l).lanes = w.lanes ∧
    (w.setV r l).valloc = w.valloc ∧ (w.setV r l).queue = w.queue ∧ (w.setV r l).lword = w.lword ∧ (w.setV r l).blocks = w.blocks ∧
    (w.setV r l).drains = w.drains ∧ (w.setV r l).outG = w.outG ∧ (w.setV r l).outX = w.outX ∧ (w.setV r l).outA = w.outA ∧
    (w.setV r l).outT = w.outT ∧ (w.setV r l).acks = w.acks ∧ (w.setV r l).pendS = w.pendS ∧ (w.setV r l).pendV = w.pendV ∧
    (w.setV r l).acquires = w.acquires ∧ (w.setV r l).wph = w.wph ∧ (w.setV r l).lastBatch = w.lastBatch ∧
    (w.setV r l).openOps = w.openOps ∧ (w.setV r l).batches = w.batches ∧ (w.setV r l).batchErr = w.batchErr ∧
    (w.setV r l).park = w.park ∧ (w.setV r l).lpark = w.lpark ∧ (w.setV r l).live = w.live ∧ (w.setV r l).bind = w.bind ∧
    (w.setV r l).stop = w.stop ∧ (w.setV r l).xs = w.xs ∧ (w.setV r l).xl = w.xl ∧ (w.setV r l).rd = w.rd ∧ (w.setV r l).rl = w.rl ∧
    (w.setV r l).install = w.install ∧ (w.setV r l).collIn = w.collIn ∧ (w.setV r l).ready = w.ready ∧ (w.setV r l).rank = w.rank ∧
    (w.setV r l).lready = w.lready := by
  unfold Warp.setV; split <;> simp

@[simp] theorem setVT_frame (t r : Nat) (l : List (Nat × Nat)) :
    (w.setVT t r l).cluster = w.cluster ∧ (w.setVT t r l).wslot = w.wslot ∧ (w.setVT t r l).pipe = w.pipe ∧
    (w.setVT t r l).cslot = w.cslot ∧ (w.setVT t r l).wcrew = w.wcrew ∧ (w.setVT t r l).spc = w.spc ∧
    (w.setVT t r l).sregs = w.sregs ∧ (w.setVT t r l).q = w.q ∧ (w.setVT t r l).preds = w.preds ∧ (w.setVT t r l).wstat = w.wstat ∧
    (w.setVT t r l).nmode = w.nmode ∧ (w.setVT t r l).lanes = w.lanes ∧ (w.setVT t r l).valloc = w.valloc ∧
    (w.setVT t r l).queue = w.queue ∧ (w.setVT t r l).lword = w.lword ∧ (w.setVT t r l).blocks = w.blocks ∧
    (w.setVT t r l).drains = w.drains ∧ (w.setVT t r l).outG = w.outG ∧ (w.setVT t r l).outX = w.outX ∧
    (w.setVT t r l).outA = w.outA ∧ (w.setVT t r l).outT = w.outT ∧ (w.setVT t r l).acks = w.acks ∧ (w.setVT t r l).pendS = w.pendS ∧
    (w.setVT t r l).pendV = w.pendV ∧ (w.setVT t r l).acquires = w.acquires ∧ (w.setVT t r l).wph = w.wph ∧
    (w.setVT t r l).lastBatch = w.lastBatch ∧ (w.setVT t r l).openOps = w.openOps ∧ (w.setVT t r l).batches = w.batches ∧
    (w.setVT t r l).batchErr = w.batchErr ∧ (w.setVT t r l).park = w.park ∧ (w.setVT t r l).lpark = w.lpark ∧
    (w.setVT t r l).live = w.live ∧ (w.setVT t r l).bind = w.bind ∧ (w.setVT t r l).stop = w.stop ∧ (w.setVT t r l).xs = w.xs ∧
    (w.setVT t r l).xl = w.xl ∧ (w.setVT t r l).rd = w.rd ∧ (w.setVT t r l).rl = w.rl ∧ (w.setVT t r l).install = w.install ∧
    (w.setVT t r l).collIn = w.collIn ∧ (w.setVT t r l).ready = w.ready ∧ (w.setVT t r l).rank = w.rank ∧
    (w.setVT t r l).lready = w.lready := by
  unfold Warp.setVT; split <;> simp

@[simp] theorem setP_frame (r : Nat) (l : List (Nat × Bool)) :
    (w.setP r l).cluster = w.cluster ∧ (w.setP r l).wslot = w.wslot ∧ (w.setP r l).pipe = w.pipe ∧ (w.setP r l).cslot = w.cslot ∧
    (w.setP r l).wcrew = w.wcrew ∧ (w.setP r l).spc = w.spc ∧ (w.setP r l).sregs = w.sregs ∧ (w.setP r l).q = w.q ∧
    (w.setP r l).vregs = w.vregs ∧ (w.setP r l).wstat = w.wstat ∧ (w.setP r l).nmode = w.nmode ∧ (w.setP r l).lanes = w.lanes ∧
    (w.setP r l).valloc = w.valloc ∧ (w.setP r l).queue = w.queue ∧ (w.setP r l).lword = w.lword ∧ (w.setP r l).blocks = w.blocks ∧
    (w.setP r l).drains = w.drains ∧ (w.setP r l).outG = w.outG ∧ (w.setP r l).outX = w.outX ∧ (w.setP r l).outA = w.outA ∧
    (w.setP r l).outT = w.outT ∧ (w.setP r l).acks = w.acks ∧ (w.setP r l).pendS = w.pendS ∧ (w.setP r l).pendV = w.pendV ∧
    (w.setP r l).acquires = w.acquires ∧ (w.setP r l).wph = w.wph ∧ (w.setP r l).lastBatch = w.lastBatch ∧
    (w.setP r l).openOps = w.openOps ∧ (w.setP r l).batches = w.batches ∧ (w.setP r l).batchErr = w.batchErr ∧
    (w.setP r l).park = w.park ∧ (w.setP r l).lpark = w.lpark ∧ (w.setP r l).live = w.live ∧ (w.setP r l).bind = w.bind ∧
    (w.setP r l).stop = w.stop ∧ (w.setP r l).xs = w.xs ∧ (w.setP r l).xl = w.xl ∧ (w.setP r l).rd = w.rd ∧ (w.setP r l).rl = w.rl ∧
    (w.setP r l).install = w.install ∧ (w.setP r l).collIn = w.collIn ∧ (w.setP r l).ready = w.ready ∧ (w.setP r l).rank = w.rank ∧
    (w.setP r l).lready = w.lready := by
  unfold Warp.setP; split <;> simp

@[simp] theorem goto_fields (now : Nat) (a : W64) :
    (w.goto now a).spc = a ∧ (w.goto now a).park = .run ∧ (w.goto now a).xs = [] ∧ (w.goto now a).ready = now + 1 ∧
      (w.goto now a).rank = 0 := by
  simp [Warp.goto]

@[simp] theorem advance_fields (now n : Nat) :
    (w.advance now n).spc = w.spc + BitVec.ofNat 64 n ∧ (w.advance now n).park = .run ∧ (w.advance now n).xs = [] ∧
      (w.advance now n).ready = now + 1 ∧ (w.advance now n).rank = 0 := by
  simp [Warp.advance]

/-- s0 reads zero (R28). -/
@[simp] theorem s_zero : w.s 0 = 0 := rfl

/-- A write is read back, but for s0, which discards it (R28). -/
theorem s_setS (i j : Nat) (v : W64) : (w.setS i v).s j = if j = i ∧ i ≠ 0 then v else w.s j := by
  unfold Warp.s Warp.setS
  by_cases hi : i = 0
  · subst hi; simp
  · by_cases hj : j = i
    · subst hj; simp [hi, Tab.getD]
    · by_cases h0 : j = 0
      · simp [h0, Ne.symm hi]
      · simp [hi, hj, h0, Tab.getD]

@[simp] theorem s_setS_same (i : Nat) (v : W64) (h : i ≠ 0) : (w.setS i v).s i = v := by simp [s_setS, h]

/-- q0 reads true (R28). -/
@[simp] theorem qp_zero : w.qp 0 = true := rfl

end

end Sys2Proof.Machine
end

