-- ==== Sys2Proof/Laws/Memory.lean ====
section
/-!
SUPPORT. Memory: a read after a write to the same place gives the value written, a write leaves every other place alone, and every
memory operation keeps the canonical form.
-/
namespace Sys2Proof.Machine

/-! ### One byte -/

theorem memRead_above (m : Mem) (a : Nat) (h : memAbove a m = true) : memRead m a = memDefault := by
  induction m with
  | nil => rfl
  | cons c r ih =>
    obtain ⟨k, v⟩ := c
    simp only [memAbove, List.all_cons, Bool.and_eq_true, decide_eq_true_eq] at h
    simp only [memRead]
    rw [if_neg (by omega)]
    exact ih (by simpa [memAbove] using h.2)

theorem memAbove_mono (m : Mem) (a b : Nat) (hab : a ≤ b) (h : memAbove b m = true) : memAbove a m = true := by
  simp only [memAbove, List.all_eq_true, decide_eq_true_eq] at *
  intro c hc
  have := h c hc
  omega

theorem memAbove_memWrite (m : Mem) (k a : Nat) (b : Byte) (hk : k < a) (h : memAbove k m = true) :
    memAbove k (memWrite m a b) = true := by
  induction m with
  | nil => unfold memWrite; split <;> simp [memAbove, hk]
  | cons c r ih =>
    obtain ⟨j, v⟩ := c
    simp only [memAbove, List.all_cons, Bool.and_eq_true, decide_eq_true_eq] at h
    have hr : memAbove k r = true := by simpa [memAbove] using h.2
    have h2 := h.2
    unfold memWrite
    split
    · split
      · exact hr
      · simp [memAbove, hk]; simpa using h2
    · split
      · split
        · simp [memAbove, h.1]; simpa using h2
        · simp [memAbove, hk, h.1]; simpa using h2
      · have := ih hr
        simp only [memAbove, List.all_cons, Bool.and_eq_true, decide_eq_true_eq]
        exact ⟨h.1, by simpa [memAbove] using this⟩

/-- A byte just written reads back. -/
theorem memRead_memWrite_same (m : Mem) (a : Nat) (b : Byte) (h : Memory.wf m = true) : memRead (memWrite m a b) a = b := by
  induction m with
  | nil => unfold memWrite; split <;> simp_all [memRead]
  | cons c r ih =>
    obtain ⟨k, v⟩ := c
    simp only [Memory.wf, Bool.and_eq_true] at h
    unfold memWrite
    split
    · next hk =>
      subst hk
      split
      · next hb => rw [hb]; exact memRead_above r k h.1.2
      · simp [memRead]
    · next hk =>
      split
      · next hlt =>
        split
        · next hb =>
          rw [hb]; apply memRead_above
          simp only [memAbove, List.all_cons, Bool.and_eq_true, decide_eq_true_eq]
          exact ⟨hlt, by simpa [memAbove] using memAbove_mono r a k (by omega) h.1.2⟩
        · simp [memRead]
      · simp only [memRead, if_neg hk]
        exact ih h.2

/-- Every other byte is as before. -/
theorem memRead_memWrite_other (m : Mem) (a j : Nat) (b : Byte) (h : j ≠ a) : memRead (memWrite m a b) j = memRead m j := by
  induction m with
  | nil => unfold memWrite; split <;> simp [memRead, Ne.symm h]
  | cons c r ih =>
    obtain ⟨k, v⟩ := c
    unfold memWrite
    split
    · next hk => subst hk; split <;> simp [memRead, Ne.symm h]
    · split
      · split <;> simp [memRead, Ne.symm h]
      · simp [memRead, ih]

/-- A write keeps the canonical form. -/
theorem wf_memWrite (m : Mem) (a : Nat) (b : Byte) (h : Memory.wf m = true) : Memory.wf (memWrite m a b) = true := by
  induction m with
  | nil => unfold memWrite; split <;> simp_all [Memory.wf, memAbove]
  | cons c r ih =>
    obtain ⟨k, v⟩ := c
    simp only [Memory.wf, Bool.and_eq_true, bne_iff_ne, ne_eq] at h
    unfold memWrite
    split
    · next hk =>
      subst hk
      split
      · exact h.2
      · next hb => simp [Memory.wf, hb, h.1.2, h.2]
    · next hk =>
      split
      · next hlt =>
        split
        · simp [Memory.wf, h]
        · next hb =>
          have : memAbove a ((k, v) :: r) = true := by
            simp only [memAbove, List.all_cons, Bool.and_eq_true, decide_eq_true_eq]
            exact ⟨hlt, by simpa [memAbove] using memAbove_mono r a k (by omega) h.1.2⟩
          simp [Memory.wf, hb, this, h]
      · next hlt =>
        simp [Memory.wf, h.1.1, memAbove_memWrite r k a b (by omega) h.1.2, ih h.2]

/-! ### Several bytes -/

theorem wf_memWriteN (m : Mem) (a n v : Nat) (h : Memory.wf m = true) : Memory.wf (memWriteN m a n v) = true := by
  induction n generalizing m a v with
  | zero => exact h
  | succ n ih => exact ih _ _ _ (wf_memWrite m a _ h)

/-- Bytes outside the range written are as before. -/
theorem memRead_memWriteN_other (m : Mem) (a n v j : Nat) (h : j < a ∨ a + n ≤ j) : memRead (memWriteN m a n v) j = memRead m j := by
  induction n generalizing m a v with
  | zero => rfl
  | succ n ih =>
    rw [memWriteN, ih _ _ _ (by omega), memRead_memWrite_other _ _ _ _ (by omega)]

/-- Byte i of the range is byte i of the value, little-endian (R12). -/
theorem memRead_memWriteN (m : Mem) (a n v i : Nat) (h : Memory.wf m = true) (hi : i < n) :
    memRead (memWriteN m a n v) (a + i) = BitVec.ofNat 8 (v / 256 ^ i) := by
  induction n generalizing m a v i with
  | zero => omega
  | succ n ih =>
    cases i with
    | zero =>
      rw [memWriteN, memRead_memWriteN_other _ _ _ _ _ (by omega)]
      simpa using memRead_memWrite_same m a (BitVec.ofNat 8 v) h
    | succ i =>
      rw [memWriteN, show a + (i + 1) = a + 1 + i by omega, ih _ _ _ _ (wf_memWrite m a _ h) (by omega)]
      rw [Nat.pow_succ, Nat.mul_comm, Nat.div_div_eq_div_mul]

/-- A number stored is read back modulo its width. -/
theorem memReadN_memWriteN (m : Mem) (a n v : Nat) (h : Memory.wf m = true) : memReadN (memWriteN m a n v) a n = v % 256 ^ n := by
  induction n generalizing m a v with
  | zero => simp [memReadN, Nat.mod_one]
  | succ n ih =>
    have h0 := memRead_memWriteN m a (n + 1) v 0 h (by omega)
    simp only [Nat.add_zero, Nat.pow_zero, Nat.div_one] at h0
    rw [memReadN, h0, memWriteN, ih _ _ _ (wf_memWrite m a _ h)]
    have := Nat.mod_mul (x := v) (a := 256) (b := 256 ^ n)
    rw [Nat.pow_succ, Nat.mul_comm (256 ^ n) 256, this]
    simp

/-- Removing cells keeps the canonical form. -/
theorem wf_filter (m : Mem) (p : Host.Cell → Bool) (h : Memory.wf m = true) : Memory.wf (m.filter p) = true := by
  induction m with
  | nil => rfl
  | cons c r ih =>
    obtain ⟨k, v⟩ := c
    simp only [Memory.wf, Bool.and_eq_true, bne_iff_ne, ne_eq] at h
    have hr := ih h.2
    by_cases hp : p (k, v) = true
    · have ha : memAbove k (r.filter p) = true := by
        have := h.1.2
        simp only [memAbove, List.all_eq_true, decide_eq_true_eq] at *
        exact fun c hc => this c (List.mem_filter.mp hc).1
      simp [hp, Memory.wf, h.1.1, ha, hr]
    · simpa [hp] using hr

/-! ### The device's stores -/

@[simp] theorem compareWatches_mem (d : Dev) (a n : Nat) : (compareWatches d a n).mem = d.mem := by
  unfold compareWatches; split <;> rfl
@[simp] theorem dropLingers_mem (d : Dev) (a n : Nat) : (dropLingers d a n).mem = d.mem := rfl
@[simp] theorem cleanPoison_mem (d : Dev) (a n : Nat) : (cleanPoison d a n).mem = d.mem := rfl
@[simp] theorem devWriteN_mem (d : Dev) (a n v : Nat) : (devWriteN d a n v).mem = memWriteN d.mem a n v := by
  simp [devWriteN, written]

theorem wf_devWriteN (d : Dev) (a n v : Nat) (h : Memory.wf d.mem = true) : Memory.wf (devWriteN d a n v).mem = true := by
  rw [devWriteN_mem]; exact wf_memWriteN _ _ _ _ h

/-- The bytes of a list of store bytes, put into memory at a line, keep the canonical form. -/
theorem wf_recoveryWrite (m : Mem) (a : Nat) (v : W64) (h : Memory.wf m = true) : Memory.wf (recoveryWrite m a v) = true :=
  wf_memWriteN _ _ _ _ h

theorem wf_reset : Memory.wf State.reset.dev.mem = true := rfl

end Sys2Proof.Machine
end

