-- ==== Sys2Proof/Laws/Words.lean ====
section
/-!
SUPPORT. What the shared operations around a meaning do: issuing, checking, waiting, ending a word, posting records and taking a trap.
A proof about an instruction cites these and does not unfold the operations.
-/
namespace Sys2Proof.Machine

/-! ### Tables -/

theorem get?_modify {α : Type} (t : Tab α) (i j : Nat) (f : α → α) :
    Tab.get? (Tab.modify t i f) j = if j = i then (Tab.get? t i).map f else Tab.get? t j := by
  unfold Tab.modify
  by_cases h : j = i
  · subst h; cases hg : Tab.get? t j <;> simp [hg]
  · cases hg : Tab.get? t i <;> simp [h]

/-- The entry of a table whose entries are mapped. -/
theorem get?_map {α β : Type} (t : Tab α) (f : α → β) (j : Nat) :
    Tab.get? (List.map (fun e => (e.1, f e.2)) t) j = (Tab.get? t j).map f := by
  induction t with
  | nil => rfl
  | cons e r ih =>
    obtain ⟨k, v⟩ := e
    by_cases h : k = j
    · simp [Tab.get?, h]
    · simp [Tab.get?, h, ih]

/-! ### Issuing -/

/-- A scalar word acts on the issuing warp, and the schedule and the boot registers are as before. -/
theorem scalarWord_issuing {s : State} {k : Nat} {w : Warp} (h : Issuing s k w) (f : Dev → Nat → Warp → Dev) :
    scalarWord s f = .next { s with dev := f s.dev k w } := by
  obtain ⟨ha, hw⟩ := h
  simp [scalarWord, ha, hw]

/-- A lane word acts on the issuing warp and the block at the head of its queue. -/
theorem laneWord_issuing {s : State} {k : Nat} {w : Warp} {b : Block} (h : LaneIssuing s k w b)
    (f : Dev → Nat → Warp → Block → Dev) : laneWord s f = .next { s with dev := f s.dev k w b } := by
  obtain ⟨ha, hw, hb⟩ := h
  cases hq : w.queue with
  | nil => simp [hq] at hb
  | cons c r =>
    simp [hq] at hb
    subst hb
    simp [laneWord, ha, hw, hq]

/-- Whatever a scalar word does, it answers a next state with the boot registers as before, or there is no issuer. -/
theorem scalarWord_cases (s : State) (f : Dev → Nat → Warp → Dev) :
    (∃ k w, Issuing s k w ∧ scalarWord s f = .next { s with dev := f s.dev k w }) ∨ scalarWord s f = .fault .noIssuer := by
  unfold scalarWord
  split
  · next k hk =>
    split
    · next w hw => exact .inl ⟨k, w, ⟨hk, hw⟩, rfl⟩
    · exact .inr rfl
  · exact .inr rfl

theorem laneWord_cases (s : State) (f : Dev → Nat → Warp → Block → Dev) :
    (∃ k w b, LaneIssuing s k w b ∧ laneWord s f = .next { s with dev := f s.dev k w b }) ∨ laneWord s f = .fault .noIssuer := by
  unfold laneWord
  split
  · next k hk =>
    split
    · next w hw =>
      split
      · next b r hb => exact .inl ⟨k, w, b, ⟨hk, hw, by simp [hb]⟩, rfl⟩
      · exact .inr rfl
    · exact .inr rfl
  · exact .inr rfl

theorem eventStep_next (s : State) (f : Dev → Dev) : eventStep s f = .next { s with dev := f s.dev } := rfl

theorem bootStep_next (s : State) (f : Boot → Dev → Boot × Dev) :
    bootStep s f = .next { s with boot := (f s.boot s.dev).1, dev := (f s.boot s.dev).2 } := rfl

/-! ### Checking and waiting -/

theorem firstBad_none {l : List (Bool × Cls × Nat)} (h : ∀ e ∈ l, e.1 = true) : firstBad l = none := by
  induction l with
  | nil => rfl
  | cons e r ih =>
    obtain ⟨ok, c⟩ := e
    have h1 : ok = true := h (ok, c) (by simp)
    simp [firstBad, h1]
    exact ih (fun x hx => h x (by simp [hx]))

/-- A word whose checks pass does what it says. -/
theorem checked_pass {l : List (Bool × Cls × Nat)} (h : ∀ e ∈ l, e.1 = true) (f : Dev → Nat → Warp → Dev) (d : Dev) (k : Nat) (w : Warp) :
    checked l f d k w = f d k w := by
  simp [checked, firstBad_none h]

/-- A word whose check fails traps at the first failing field (R60). -/
theorem checked_fail {l : List (Bool × Cls × Nat)} {c : Cls × Nat} (h : firstBad l = some c) (f : Dev → Nat → Warp → Dev) (d : Dev)
    (k : Nat) (w : Warp) : checked l f d k w = illegal d k w c := by
  simp [checked, h]

@[simp] theorem ckType_ok (b : Bool) : (ckType b).1 = b := rfl
@[simp] theorem ckZero_ok (b : Bool) : (ckZero b).1 = b := rfl
@[simp] theorem ckD_ok (b : Bool) : (ckD b).1 = b := rfl
@[simp] theorem ckA_ok (b : Bool) : (ckA b).1 = b := rfl
@[simp] theorem ckB_ok (b : Bool) : (ckB b).1 = b := rfl

/-- A word none of whose registers waits goes on. -/
theorem interlock_free {regs : List Nat} {w : Warp} (h : w.pendingS regs = false) (f : Dev → Nat → Warp → Dev) (d : Dev) (k : Nat) :
    interlock regs f d k w = f d k w := by
  simp [interlock, h]

/-- A word one of whose registers waits is tried again in the next clock. -/
theorem interlock_waits {regs : List Nat} {w : Warp} (h : w.pendingS regs = true) (f : Dev → Nat → Warp → Dev) (d : Dev) (k : Nat) :
    interlock regs f d k w = stall d k w := by
  simp [interlock, h]

theorem done_eq (d : Dev) (k : Nat) (w' : Warp) (n : Nat) : done d k w' n = d.setWarp k (w'.advance d.clock n) := rfl

/-! ### Posting records -/

/-- w' is w but for how it is stopped, and it is stopped by the same trap. -/
def SameButStop (w w' : Warp) : Prop :=
  w' = { w with stop := w'.stop } ∧ w'.stop.map (fun t => (t.cls, t.stream)) = w.stop.map (fun t => (t.cls, t.stream))

theorem SameButStop.refl (w : Warp) : SameButStop w w := ⟨rfl, rfl⟩

theorem SameButStop.trans {a b c : Warp} (h1 : SameButStop a b) (h2 : SameButStop b c) : SameButStop a c := by
  obtain ⟨e1, s1⟩ := h1
  obtain ⟨e2, s2⟩ := h2
  refine ⟨?_, s2.trans s1⟩
  rw [e2, e1]

/-- Every warp is as before but for its stop. -/
def WarpsKept (d e : Dev) : Prop := ∀ k w, d.warps.get? k = some w → ∃ w', e.warps.get? k = some w' ∧ SameButStop w w'

theorem WarpsKept.refl (d : Dev) : WarpsKept d d := fun _ w h => ⟨w, h, .refl w⟩

theorem WarpsKept.of_eq {d e : Dev} (h : e.warps = d.warps) : WarpsKept d e := fun k w hw => ⟨w, by rw [h]; exact hw, .refl w⟩

theorem WarpsKept.trans {a b c : Dev} (h1 : WarpsKept a b) (h2 : WarpsKept b c) : WarpsKept a c := by
  intro k w hw
  obtain ⟨w1, hw1, s1⟩ := h1 k w hw
  obtain ⟨w2, hw2, s2⟩ := h2 k w1 hw1
  exact ⟨w2, hw2, s1.trans s2⟩

theorem WarpsKept.times {f : Dev → Dev} (h : ∀ d, WarpsKept d (f d)) (n : Nat) (d : Dev) : WarpsKept d (times f n d) := by
  induction n generalizing d with
  | zero => exact .refl d
  | succ n ih => exact (h d).trans (ih (f d))

@[simp] theorem devWriteN_frame (d : Dev) (a n v : Nat) :
    (devWriteN d a n v).warps = d.warps ∧ (devWriteN d a n v).parts = d.parts ∧ (devWriteN d a n v).crews = d.crews ∧
      (devWriteN d a n v).nests = d.nests ∧ (devWriteN d a n v).clusters = d.clusters ∧ (devWriteN d a n v).clock = d.clock := by
  unfold devWriteN written compareWatches
  split <;> simp [dropLingers, cleanPoison]

/-- Allocation at a pan changes the pans only (R102). -/
theorem allocate_pans {d e : Dev} {p l h : Nat} (hd : allocate d p l h = some e) : e = { d with pans := e.pans } := by
  unfold allocate at hd
  simp only [] at hd
  split at hd
  · cases hd; rfl
  · split at hd
    · cases hd; rfl
    · split at hd
      · split at hd <;> cases hd; rfl
      · cases hd

/-- The tags of a line after an agent's store: the pans alone change (R102). -/
theorem storeTags_pans (p : Nat) (d : Dev) (e : Nat × Nat × Nat) : storeTags p d e = { d with pans := (storeTags p d e).pans } := by
  unfold storeTags
  split
  · rfl
  · simp only [Dev.modLine, Dev.setPan]
    cases h : allocate d (currentPan d p e.1) e.1 0 with
    | none => rfl
    | some x => rw [allocate_pans h]; rfl

theorem storeTags_foldl (p : Nat) (l : List (Nat × Nat × Nat)) (d : Dev) :
    l.foldl (storeTags p) d = { d with pans := (l.foldl (storeTags p) d).pans } := by
  induction l generalizing d with
  | nil => rfl
  | cons e r ih => rw [List.foldl_cons, ih, storeTags_pans]

/-- A store of an agent writes its bytes and leaves the warps, crews, nests, partitions, clusters and the clock alone. -/
@[simp] theorem agentWriteN_frame (d : Dev) (p a n v : Nat) :
    (agentWriteN d p a n v).warps = d.warps ∧ (agentWriteN d p a n v).parts = d.parts ∧ (agentWriteN d p a n v).crews = d.crews ∧
      (agentWriteN d p a n v).nests = d.nests ∧ (agentWriteN d p a n v).clusters = d.clusters ∧
      (agentWriteN d p a n v).clock = d.clock := by
  unfold agentWriteN
  rw [storeTags_foldl]
  simp

theorem warpsKept_flushFault1 (d : Dev) (p : Nat) : WarpsKept d (flushFault1 d p) := by
  unfold flushFault1
  simp only []
  split
  · exact .of_eq (by simp)
  · exact .refl d

/-- A trap that is written is the same trap, and later ones are as they were but for the one written. -/
theorem recorded_same (w : Warp) (n q : Nat) : SameButStop w (w.recorded n q) := by
  refine ⟨rfl, ?_⟩
  simp only [Warp.recorded, Option.map_map]
  congr 1
  funext t
  by_cases h : t.num = n <;> simp [h]

theorem warpsKept_recordWritten (d : Dev) (n q : Nat) : WarpsKept d (recordWritten d n q) := by
  intro k w hw
  exact ⟨w.recorded n q, (get?_map d.warps (fun w => w.recorded n q) k).trans (by rw [hw]; rfl), recorded_same w n q⟩

theorem WarpsKept.recorded {d e : Dev} (h : e.warps = d.warps) (n q v : Nat) : WarpsKept d ((recordWritten e n q).raise v) :=
  (WarpsKept.of_eq h).trans ((warpsKept_recordWritten e n q).trans (.of_eq (by simp)))

theorem warpsKept_flushTrap1 (d : Dev) (p : Nat) : WarpsKept d (flushTrap1 d p) := by
  unfold flushTrap1
  simp only []
  split
  · split
    · exact .recorded (by simp) _ _ _
    · exact .refl d
  · exact .refl d

theorem warpsKept_flushRecords (d : Dev) (p : Nat) : WarpsKept d (flushRecords d p) :=
  (WarpsKept.times (fun d => warpsKept_flushFault1 d p) _ d).trans (WarpsKept.times (fun d => warpsKept_flushTrap1 d p) _ _)

theorem times_fixed {α : Type} {f : α → α} {x : α} (h : f x = x) (n : Nat) : times f n x = x := by
  induction n with
  | zero => rfl
  | succ n ih => rw [times, h, ih]

/-- With no ring set up, a record has no place. -/
theorem ringPlace_none {ring : W64} (h : ringSize ring = none) (d : Dev) (p : Nat) (wr rd : W64) (n : Nat) :
    ringPlace d p ring wr rd n = none := by
  simp [ringPlace, h]

/-- With no ring set up, records are held (R430). -/
theorem flushRecords_held (d : Dev) (p : Nat) (ht : ringSize (d.part p).tring = none) (hf : ringSize (d.part p).fring = none) :
    flushRecords d p = d := by
  have h1 : flushFault1 d p = d := by unfold flushFault1; simp only [ringPlace_none hf]; split <;> simp_all
  have h2 : flushTrap1 d p = d := by unfold flushTrap1; simp only [ringPlace_none ht]; split <;> simp_all
  show times (fun d => flushTrap1 d p) _ (times (fun d => flushFault1 d p) _ d) = d
  rw [times_fixed (f := fun d => flushFault1 d p) h1, times_fixed (f := fun d => flushTrap1 d p) h2]

/-- A trap record that is posted waits among the others of its partition, in their order (R387). -/
@[simp] theorem postTrap_frame (d : Dev) (p : Nat) (r : TrapRec) :
    (postTrap d p r).warps = d.warps ∧ (postTrap d p r).nests = d.nests ∧ (postTrap d p r).mem = d.mem ∧
      ((postTrap d p r).part p).heldT = insertTrap r (d.part p).heldT := by
  simp [postTrap]

@[simp] theorem markEnding_warps (d : Dev) : (markEnding d).warps = d.warps := rfl
@[simp] theorem markEnding_parts (d : Dev) : (markEnding d).parts = d.parts := rfl
@[simp] theorem markEnding_crews (d : Dev) : (markEnding d).crews = d.crews := rfl
@[simp] theorem markEnding_mem (d : Dev) : (markEnding d).mem = d.mem := rfl

theorem times_field {α : Type} (g : Dev → α) {f : Dev → Dev} (h : ∀ d, g (f d) = g d) (n : Nat) (d : Dev) : g (times f n d) = g d := by
  induction n generalizing d with
  | zero => rfl
  | succ n ih => rw [times, ih, h]

@[simp] theorem endNest_warps (d : Dev) (n : Nat) : (endNest d n).warps = d.warps := times_field _ markEnding_warps _ _
@[simp] theorem endNest_parts (d : Dev) (n : Nat) : (endNest d n).parts = d.parts := times_field _ markEnding_parts _ _
@[simp] theorem endNest_crews (d : Dev) (n : Nat) : (endNest d n).crews = d.crews := times_field _ markEnding_crews _ _
@[simp] theorem endNest_mem (d : Dev) (n : Nat) : (endNest d n).mem = d.mem := times_field _ markEnding_mem _ _

@[simp] theorem dropLatches_frame (d : Dev) (c p : Nat) :
    (dropLatches d c p).warps = d.warps ∧ (dropLatches d c p).parts = d.parts ∧ (dropLatches d c p).crews = d.crews ∧
      (dropLatches d c p).nests = d.nests ∧ (dropLatches d c p).mem = d.mem ∧ (dropLatches d c p).clock = d.clock := by
  simp [dropLatches]

/-! ### Taking a trap -/

/-- How trap `num` leaves a warp stopped: a warp stopped already waits for this record too (R384). -/
def stopOf (w : Warp) (cls : Cls) (stream : Stream) (num : Nat) : Stop :=
  match w.stop with
  | none => ⟨cls, stream, num, none, false, []⟩
  | some t => { t with later := t.later ++ [num] }

@[simp] theorem withdrawGrow_frame (d : Dev) (k : Nat) (w : Warp) :
    (withdrawGrow d k w).warps = d.warps ∧ (withdrawGrow d k w).parts = d.parts ∧ (withdrawGrow d k w).crews = d.crews ∧
      (withdrawGrow d k w).nests = d.nests ∧ (withdrawGrow d k w).mem = d.mem ∧ (withdrawGrow d k w).clock = d.clock := by
  simp [withdrawGrow]

/-- The warp as trap `num` leaves it (R385). -/
def trapped (w : Warp) (cls : Cls) (stream : Stream) (num : Nat) : Warp :=
  { w with
    stop := some (stopOf w cls stream num), xs := [], xl := [], rd := Reads.empty, rl := Reads.empty, bind := none
    park := (if w.park == .point || w.park == .save then w.park else .run) }

/-- A trap leaves the warp stopped, every register as it was, and every other warp as it was (R384, R385). -/
theorem takeTrap_warps (d : Dev) (k : Nat) (w : Warp) (stream : Stream) (cls : Cls) (waddr block : Nat) (lmask : Mask) (aux : W64)
    (args : List W64) :
    (takeTrap d k w stream cls waddr block lmask aux args).warps = d.warps.set k (trapped w cls stream d.nextId) := by
  unfold takeTrap
  simp only [postTrap_frame]
  cases hs : w.stop <;> split <;> simp [stopOf, trapped, hs]

/-! ### The whole of a trap -/

theorem ending_markEnding (d : Dev) (k : Nat) {n : Nest} (h : d.nests.get? k = some n) (he : n.ending = true) :
    ∃ n', (markEnding d).nests.get? k = some n' ∧ n'.ending = true := by
  refine ⟨{ n with ending := n.ending || ((n.parent.map (fun p => endingAt d p.1)).getD false) }, ?_, by simp [he]⟩
  refine (get?_map d.nests (fun (n : Nest) =>
    { n with ending := n.ending || ((n.parent.map (fun (p : Nat × Nat) => endingAt d p.1)).getD false) }) k).trans ?_
  rw [h]; rfl

theorem ending_times (n k : Nat) (d : Dev) {x : Nest} (h : d.nests.get? k = some x) (he : x.ending = true) :
    ∃ x', (times markEnding n d).nests.get? k = some x' ∧ x'.ending = true := by
  induction n generalizing d x with
  | zero => exact ⟨x, h, he⟩
  | succ n ih =>
    obtain ⟨y, hy, hye⟩ := ending_markEnding d k h he
    exact ih (markEnding d) hy hye

/-- A nest that is ended is ending (R389). -/
theorem endNest_ends (d : Dev) (k : Nat) {n : Nest} (h : d.nests.get? k = some n) :
    ∃ n', (endNest d k).nests.get? k = some n' ∧ n'.ending = true := by
  unfold endNest
  simp only []
  exact ending_times 10 k _ (x := { n with ending := true }) (by simp [get?_modify, h]) rfl

@[simp] theorem flushFault1_nests (d : Dev) (p : Nat) : (flushFault1 d p).nests = d.nests := by
  unfold flushFault1; simp only []; split
  · simp
  · rfl

@[simp] theorem part_congr {d e : Dev} (h : e.parts = d.parts) (p : Nat) : e.part p = d.part p := by unfold Dev.part; rw [h]

/-- What taking a trap does, for a warp that is not already stopped. -/
theorem takeTrap_taken {s : State} {k : Nat} {w : Warp} (hw : w.stop = none) (stream : Stream) (cls : Cls) (waddr block : Nat)
    (lmask : Mask) (aux : W64) (args : List W64) :
    TrapTaken s { s with dev := takeTrap s.dev k w stream cls waddr block lmask aux args } k w stream cls (BitVec.ofNat 64 waddr) lmask
      aux args w.spc := by
  refine ⟨rfl, rfl, ?_, ?_, ?_, ?_⟩
  · rw [takeTrap_warps]; simp [trapped, stopOf, hw]
  · unfold takeTrap; simp only [postTrap_frame]; split <;> simp
  · unfold takeTrap
    simp only [postTrap_frame]
    refine ⟨_, congrArg (insertTrap _) ?_, rfl, rfl, rfl, rfl, rfl, rfl, rfl, rfl, rfl, rfl, rfl, rfl⟩
    rw [part_congr]
    split <;> simp
  · intro he n hn
    unfold takeTrap
    simp only [he, if_true, postTrap_frame]
    exact endNest_ends _ _ (by simpa [nestKey] using hn)

/-- What a trap at a scalar word does (R385): END leaves the thread at the word, the other fates put it behind it. -/
theorem scalarTrap_taken {s : State} {k : Nat} {w : Warp} (hw : w.stop = none) (n : Nat) (cls : Cls) (aux : W64) (args : List W64) :
    TrapTaken s { s with dev := scalarTrap s.dev k w n cls aux args } k w .scalar cls w.spc 0 aux args
      (if cls.ends then w.spc else w.spc + BitVec.ofNat 64 n) := by
  have h := takeTrap_taken (s := s) (k := k) hw .scalar cls w.spc.toNat 0 0 aux args
  rw [BitVec.ofNat_toNat, BitVec.setWidth_eq] at h
  unfold scalarTrap
  simp only []
  by_cases he : cls.ends = true
  · simpa [he] using h
  · obtain ⟨-, -, h1, hm, hr, -⟩ := h
    have hf : cls.ends = false := by simpa using he
    rw [hf]
    simp only [Bool.false_eq_true, if_false]
    refine ⟨rfl, rfl, ?_, hm, hr, fun h => absurd h he⟩
    simp only [modWarp_warps, get?_modify, if_true]
    exact congrArg (Option.map fun (x : Warp) => { x with spc := w.spc + BitVec.ofNat 64 n }) h1

/-- A word whose check fails takes the trap of that check (R60, R386). -/
theorem illegal_taken {s : State} {k : Nat} {w : Warp} (hw : w.stop = none) (c : Cls × Nat) (hc : c.1.ends = true) :
    TrapTaken s { s with dev := illegal s.dev k w c } k w .scalar c.1 w.spc 0 (BitVec.ofNat 64 c.2) [] w.spc := by
  have := scalarTrap_taken (s := s) (k := k) hw 4 c.1 (BitVec.ofNat 64 c.2) []
  simpa [illegal, hc] using this

end Sys2Proof.Machine
end

