-- ==== Sys2Proof/Laws/Request.lean ====
section
/-!
SUPPORT. What sending a request and looking into L1 leave alone: only the cluster, the operations' installation marks and the pans' queues
change.
-/
namespace Sys2Proof.Machine

/-- Everything but the clusters, the pans and the requests' departure places is as it was. -/
structure QueuesOnly (d e : Dev) : Prop where
  clock : e.clock = d.clock
  mem : e.mem = d.mem
  poison : e.poison = d.poison
  warps : e.warps = d.warps
  crews : e.crews = d.crews
  ops : ∀ id, bareOp e id = bareOp d id
  subs : ∀ id key, bareSub e id key = bareSub d id key
  mops : e.mops = d.mops
  nests : e.nests = d.nests
  parts : e.parts = d.parts
  nextId : e.nextId = d.nextId
  free : e.free = d.free
  msix : e.msix = d.msix

theorem QueuesOnly.refl (d : Dev) : QueuesOnly d d :=
  ⟨rfl, rfl, rfl, rfl, rfl, fun _ => rfl, fun _ _ => rfl, rfl, rfl, rfl, rfl, rfl, rfl⟩

theorem QueuesOnly.trans {a b c : Dev} (h1 : QueuesOnly a b) (h2 : QueuesOnly b c) : QueuesOnly a c :=
  ⟨h2.clock.trans h1.clock, h2.mem.trans h1.mem, h2.poison.trans h1.poison, h2.warps.trans h1.warps, h2.crews.trans h1.crews,
    fun i => (h2.ops i).trans (h1.ops i), fun i j => (h2.subs i j).trans (h1.subs i j), h2.mops.trans h1.mops, h2.nests.trans h1.nests,
    h2.parts.trans h1.parts, h2.nextId.trans h1.nextId, h2.free.trans h1.free, h2.msix.trans h1.msix⟩

theorem queuesOnly_setCluster (d : Dev) (k : Nat) (x : Cluster) : QueuesOnly d (d.setCluster k x) :=
  ⟨rfl, rfl, rfl, rfl, rfl, fun _ => rfl, fun _ _ => rfl, rfl, rfl, rfl, rfl, rfl, rfl⟩

theorem queuesOnly_setPan (d : Dev) (k : Nat) (x : Pan) : QueuesOnly d (d.setPan k x) :=
  ⟨rfl, rfl, rfl, rfl, rfl, fun _ => rfl, fun _ _ => rfl, rfl, rfl, rfl, rfl, rfl, rfl⟩

/-- A request that takes the next departure place changes nothing else. -/
theorem queuesOnly_order (d : Dev) (id key n m : Nat) :
    QueuesOnly d (modSub { d with replies := n } id key (fun u => { u with order := m })) := by
  refine ⟨rfl, rfl, rfl, rfl, rfl, fun i => ?_, fun i j => ?_, rfl, rfl, rfl, rfl, rfl, rfl⟩
  · simp only [bareOp, modSub, modOp_ops, get?_modify]
    split
    · next h => subst h; cases Tab.get? d.ops i <;> simp
    · rfl
  · simp only [bareSub, modSub, modOp_ops, get?_modify]
    split
    · next h =>
      subst h
      cases Tab.get? d.ops i with
      | none => rfl
      | some o =>
        simp only [Option.map_some, Option.bind_some, get?_modify]
        split
        · next h => subst h; cases Tab.get? o.subs j <;> simp
        · rfl
    · rfl

/-- A request that leaves its cluster changes queues and departure places only (R459). -/
theorem queuesOnly_sendOne (d : Dev) (c pos : Nat) : QueuesOnly d (sendOne d c pos) := by
  unfold sendOne
  simp only []
  generalize (if (d.cluster c).sentAt = d.clock then (d.cluster c).sent else 0) = n
  split
  · exact .refl d
  · split
    · exact queuesOnly_setCluster d _ _
    · split
      · exact .refl d
      · exact ((queuesOnly_order d _ _ _ _).trans (queuesOnly_setCluster _ _ _)).trans (queuesOnly_setPan _ _ _)

/-- So do the departures of a turn. -/
theorem queuesOnly_sendAll (l : List (Nat × Nat)) (d : Dev) : QueuesOnly d (sendAll l d) := by
  unfold sendAll
  induction l generalizing d with
  | nil => exact .refl d
  | cons e r ih => exact (queuesOnly_sendOne d _ _).trans (ih _)

/-- Requests that wait to be sent stand behind the others of their cluster. -/
theorem queuesOnly_send (d : Dev) (c : Nat) (l : List (Nat × Nat)) : QueuesOnly d (send d c l) := queuesOnly_setCluster d _ _

/-- A load request that does not drop the line changes only its cluster. -/
theorem queuesOnly_loadSub (d : Dev) (k c line hint : Nat) (h : hint ≠ 5) : QueuesOnly d (loadSub d k c line hint).1 := by
  unfold loadSub
  split
  · simp only [h, if_false]
    split
    · exact .refl d
    · exact queuesOnly_setCluster d _ _
  · exact .refl d

/-- A load request is for its line, and asks to load it. -/
theorem loadSub_line (d : Dev) (k c line hint : Nat) :
    (loadSub d k c line hint).2.line = line ∧ (loadSub d k c line hint).2.act = .load := by
  unfold loadSub; split
  · dsimp only; split <;> simp [Sub.new]
  · simp [Sub.new]

theorem queuesOnly_l1Install (d : Dev) (c line : Nat) (data : Line) (f o h : Nat) : QueuesOnly d (l1Install d c line data f o h) := by
  unfold l1Install; exact queuesOnly_setCluster d _ _

/-- Forbidding installations changes the requests' marks only. -/
@[simp] theorem noInstall_frame (d : Dev) (c : Nat) (f : Sub → Bool) :
    (noInstall d c f).clock = d.clock ∧ (noInstall d c f).mem = d.mem ∧ (noInstall d c f).poison = d.poison ∧
      (noInstall d c f).warps = d.warps ∧ (noInstall d c f).crews = d.crews ∧ (noInstall d c f).nests = d.nests ∧
      (noInstall d c f).parts = d.parts ∧ (noInstall d c f).nextId = d.nextId ∧ (noInstall d c f).clusters = d.clusters ∧
      (noInstall d c f).mops = d.mops ∧ (noInstall d c f).msix = d.msix := by
  simp [noInstall]

@[simp] theorem l1Store_frame (d : Dev) (c line h : Nat) (bs : List (Nat × Byte × Byte)) :
    (l1Store d c line h bs).clock = d.clock ∧ (l1Store d c line h bs).mem = d.mem ∧ (l1Store d c line h bs).poison = d.poison ∧
      (l1Store d c line h bs).warps = d.warps ∧ (l1Store d c line h bs).crews = d.crews ∧ (l1Store d c line h bs).nests = d.nests ∧
      (l1Store d c line h bs).parts = d.parts ∧ (l1Store d c line h bs).nextId = d.nextId := by
  unfold l1Store; simp only []; split <;> simp

@[simp] theorem l1Drop_frame (d : Dev) (c line : Nat) :
    (l1Drop d c line).clock = d.clock ∧ (l1Drop d c line).mem = d.mem ∧ (l1Drop d c line).poison = d.poison ∧
      (l1Drop d c line).warps = d.warps ∧ (l1Drop d c line).crews = d.crews ∧ (l1Drop d c line).nests = d.nests ∧
      (l1Drop d c line).parts = d.parts ∧ (l1Drop d c line).nextId = d.nextId := by
  simp [l1Drop]

/-- Remembering that a newer value was read changes only L1 and the requests' marks (R305). -/
@[simp] theorem forgetOlder_frame (d : Dev) (c line order : Nat) :
    (forgetOlder d c line order).clock = d.clock ∧ (forgetOlder d c line order).mem = d.mem ∧
      (forgetOlder d c line order).poison = d.poison ∧ (forgetOlder d c line order).warps = d.warps ∧
      (forgetOlder d c line order).crews = d.crews ∧ (forgetOlder d c line order).nests = d.nests ∧
      (forgetOlder d c line order).parts = d.parts ∧ (forgetOlder d c line order).nextId = d.nextId := by
  unfold forgetOlder; simp only []; split
  · split <;> simp
  · simp

/-- So does putting a returned line into L1 (R102, R305). -/
@[simp] theorem installSub_frame (d : Dev) (c : Nat) (u : Sub) :
    (installSub d c u).clock = d.clock ∧ (installSub d c u).mem = d.mem ∧ (installSub d c u).poison = d.poison ∧
      (installSub d c u).warps = d.warps ∧ (installSub d c u).crews = d.crews ∧ (installSub d c u).nests = d.nests ∧
      (installSub d c u).parts = d.parts ∧ (installSub d c u).nextId = d.nextId := by
  unfold installSub; simp only []; split
  · simp
  · simp [l1Install]

end Sys2Proof.Machine
end

