-- ==== Sys2Proof/Tests/Slice0.lean ====
section
/-!
SUPPORT. Tests: ill-formed instructions are refused, words written out from the spec decode, a few words run one step. The small states
below are those that the witness files meet the hypotheses of the statements with, clause by clause.
-/
namespace Sys2Proof.Tests
open Sys2Proof.Machine
set_option Elab.async false

/-- Partition 0 enabled with 64 nests and 8 queue slots, a window of 1 GiB at 0, and page tables at 0x3000. -/
def tPart : Part := { Part.empty with pctl := 0x0000000840000001, pwin := [(0, 0x2001)], ptbase := 0x3001 }

/-- One 1 GiB page maps every address below 1 GiB to itself. -/
def tLeaf : Leaf := ⟨0, 2, 0, true, true⟩
def tTlb : List TlbEntry := [⟨0, 0, tLeaf⟩]
def tTables : Mem := [(0x3000, 1), (0x3001, 0x40), (0x4000, 0xF)]

/-- A nest at 0x20000 with scalar code of 4 KiB at 64 KiB, one warp of 8 granules, gates 0 and 1 declared with 1 and 2 arrivals. -/
def tRecord : BitVec 2048 :=
  BitVec.ofNat 2048 (0x10000 + 2 ^ 64 * 0x10000 + 2 ^ 128 * 0x12000 + 2 ^ 384 * 4096 + 2 ^ 448 * (8 * 4096))
def tNest : Nest :=
  ⟨0, 0x20000, 0x20000, tRecord, [], [0, 0, 0, 0], [⟨[], 0, 1, 1, 0, 0⟩], some [], 1, 1, none, none, [⟨⟨[0], 0⟩, some 0, false, 0, false⟩], [], [], 1, 1,
    [], false, false, 0, none⟩
def tCrew : Crew :=
  { placeCrew with gates := [(0, ⟨1, 0, 0⟩), (1, ⟨2, 0, 0⟩)], ssize := 8192, tiles := [(0, 0), (1, 1)] }
def tWarp : Warp := { freshWarp tNest 0 0 0 0 0 0 with park := .run, valloc := 8 }
def tCluster : Cluster := { Cluster.empty with tlb := tTlb }

def tDev : Dev := { Dev.reset with
  clock := 1000, mem := tTables, warps := [(0, tWarp)], crews := [(0, tCrew)], nests := [(0, tNest)], parts := [(0, tPart)],
  clusters := [(0, tCluster)], engines := [(0, ⟨[], tTlb, 0⟩)], actor := .scalar 0 }

/-- The warp w issues a scalar word. -/
def scalarAt (w : Warp) : State := { State.reset with dev := { tDev with warps := [(0, w)] } }
/-- The warp w issues a lane word of a block. -/
def tBlock : Block := ⟨0x12000, 2, [], 0, 64, 8, [], false⟩
def laneAt (w : Warp) : State := { State.reset with dev := { tDev with actor := .lane 0, warps := [(0, { w with queue := [tBlock] })] } }
/-- A state with a device for the steps of the machine. -/
def devAt (d : Dev) : State := { State.reset with dev := { d with actor := .none } }
/-- A word of w in progress has read lines of d. -/
def withLines (d : Dev) (ls : List Nat) (w : Warp) : Warp := { w with rd := ⟨none, ls.map (fun l => (l, lineAt d l, 0))⟩ }
/-- What HasRead asks of a concrete warp. -/
theorem hasRead_of {d : Dev} {va n pa : Nat} {w : Warp} (l : Leaf)
    (h : xlate d w.xs w.cluster (d.partOf w) va .read = .hit pa l ∧ (linesOf pa n).all (fun l => (w.rd.line l).isSome) = true ∧
      w.rd.bad pa n = none) : HasRead d w va n pa := ⟨⟨l, h.1⟩, h.2⟩
/-! ### Ill-formed instructions are refused (R28, R34 to R37, R56 to R62) -/

/-- A lane word of a type with operand codes and a modifier, guards "always". -/
def ln (ty d s0 s1 s2 s3 mdf : Nat) : LaneWord :=
  ⟨BitVec.ofNat 4 ty, BitVec.ofNat 11 d, BitVec.ofNat 11 s0, BitVec.ofNat 11 s1, BitVec.ofNat 11 s2, BitVec.ofNat 11 s3, 31, 31, 0, 0, 0, 0, 0,
    BitVec.ofNat 3 mdf⟩
/-- The well-formed instruction is taken, the ill-formed ones are not. -/
def refuses (good : Instr) (bad : List Instr) : Bool := wfInstr good && bad.all (fun i => !wfInstr i)

theorem test_wf_scalar_alu : refuses (.popc 1 2 0 1) [.popc 1 2 1 1, .popc 1 2 0 0, .clz 1 2 1 3, .clz 1 2 0 2] &&
    refuses (.and 1 2 3 3) [.and 1 2 3 0, .or 1 2 3 2, .xor 1 2 3 0, .shl 1 2 3 2, .shr 1 2 3 0, .sra 1 2 3 2] &&
    refuses (.cmp 7 2 3 5 0 0) [.cmp 8 2 3 5 0 0, .cmp 7 2 3 6 0 0, .cmp 7 2 3 5 1 0] &&
    refuses (.shlB64Imm 1 2 63) [.shlB64Imm 1 2 64, .shrB64Imm 1 2 64, .sraB64Imm 1 2 0x2000] &&
    refuses (.cmpiEqS64 7 0 0) [.cmpiEqS64 8 0 0, .cmpiLtS64 8 0 0, .cmpiLtN64 63 0 0] := by decide
theorem test_wf_sync : refuses (.garrive 0 15 0) [.garrive 1 15 0, .garrive 0 16 0, .gwait 0 15 1, .gwait 0 16 0] &&
    refuses (.gtry 7 15 3) [.gtry 8 15 3, .gtry 7 16 3] && refuses (.cwaitG 0 1 0) [.cwaitG 1 1 0, .cwaitX 0 1 1, .cwaitA 1 1 0, .cwaitT 0 1 1] &&
    refuses (.tokPass 0 1 0) [.tokPass 1 1 0, .tokTake 0 1 0, .vshrink 0 1 1, .vgrow 8 1 0, .vgrow 7 1 1, .ret 1 1 0] &&
    refuses (.fenceAcq 0 0 0 5) [.fenceAcq 0 0 0 6, .fenceRel 0 1 0 5, .fenceFull 0 0 0 7, .fenceFull 1 0 0 0] := by decide
theorem test_wf_system : refuses (.jtab 0 1 2) [.jtab 1 1 2] && refuses (.srd 1 0 9) [.srd 1 1 9] && refuses (.swr 0 1 9) [.swr 1 1 9, .swr 0 1 48, .swr 0 1 51] &&
    refuses (.cclean 62) [.cclean 63, .cflush 63, .cdrop 63, .czero 63] && refuses (.trap 0 0 5) [.trap 1 0 5, .sysc 0 1 5, .halt 0 0 1] &&
    refuses (.land 0 3 0) [.land 1 3 0, .land 0 4 0] := by decide
theorem test_wf_windows_matrix_nests : refuses (.winBind 0 15 1) [.winBind 1 15 1, .winBind 0 16 1, .winState 1 16 0, .winState 1 15 1, .winFree 0 16 0] &&
    refuses (.mcjoin 0 1 2) [.mcjoin 1 1 2, .kvinv 1 1 2, .mcleave 0 1 1, .mwait 1 1 0, .ppoint 0 1 1] &&
    refuses (.mma 15 61 62) [.mma 16 61 62, .mma 15 62 62, .mma 15 61 61, .mmaN128 15 61 62, .mmaN128 14 62 62, .mmaN128 14 61 61] &&
    refuses (.mdrain 15 1 1535) [.mdrain 16 1 1535, .mdrain 15 1 1536, .mcommit 1 1 0] &&
    refuses (.nestGrow 1 2 3) [.nestGrow 1 2 4, .nestIdx 1 1 3, .nestIdx 1 0 4, .nestLaunch 1 2 1, .pdone 0 0 1] &&
    refuses (.satom 62 62 60) [.satom 63 62 60, .satom 62 63 60, .satom 62 62 61] && refuses (.collStart 0 1 15) [.collStart 1 1 15, .collStart 0 1 16] := by decide
theorem test_wf_lane_fields : (let f := ln 2 1 2 3 2047 2047 0
    refuses (.laneAdd f) [.laneAdd { f with s2 := 0 }, .laneAdd { f with s1 := 2047 }, .laneAdd { f with dst := 1544 }, .laneAdd { f with s0 := 1568 },
      .laneAdd { f with gA := 24 }, .laneAdd { f with gB := 62 }, .laneAdd { f with hint := 1 }, .laneAdd { f with nowb := 1 }, .laneAdd { f with mdf := 1 },
      .laneAdd { f with ty := 11 }, .laneAdd { f with ty := 3, dst := 1 }, .laneMulhi { f with ty := 1 }, .laneAnd f, .laneMov f, .laneNop f]) := by decide
theorem test_wf_lane_arithmetic : refuses (.laneMad (ln 7 2 4 6 8 2047 0)) [.laneMad (ln 8 2 4 6 8 2047 0), .laneMad (ln 7 2 4 6 7 2047 0)] &&
    refuses (.laneAbs (ln 3 2 4 2047 2047 2047 0)) [.laneAbs (ln 4 2 4 2047 2047 2047 0), .laneNeg (ln 7 2 4 2047 2047 2047 0)] &&
    refuses (.laneSel (ln 2 1 2 3 1544 2047 0)) [.laneSel (ln 2 1 2 3 4 2047 0), .laneSel (ln 13 1 2 3 1544 2047 0)] &&
    refuses (.laneNot (ln 6 1 2 2047 2047 2047 0)) [.laneNot (ln 2 1 2 2047 2047 2047 0), .lanePopc (ln 6 1 2 2 2047 2047 0)] &&
    refuses (.laneCmp (ln 8 1544 2 3 2047 2047 7)) [.laneCmp (ln 8 16 2 3 2047 2047 7), .laneCmp (ln 2 1544 2 3 2047 2047 6)] &&
    refuses (.fma (ln 9 1 2 3 4 2047 0)) [.fma (ln 2 1 2 3 4 2047 0)] && refuses (.rndi (ln 9 1 2 2047 2047 2047 3)) [.rndi (ln 9 1 2 2047 2047 2047 4)] &&
    refuses (.exp2 (ln 8 1 2 2047 2047 2047 0)) [.exp2 (ln 6 1 2 2047 2047 2047 0), .gelu (ln 8 1 2 2047 2047 2047 1)] := by decide
theorem test_wf_lane_others : refuses (.cvt (ln 2 1 2 2047 2047 8 0)) [.cvt (ln 2 1 2 2047 2047 2 0), .cvt (ln 2 1 2 2047 2047 2047 0), .cvt (ln 14 1 2 2047 2047 2 0)] &&
    refuses (.pand (ln 15 1544 1545 1546 2047 2047 0)) [.pand (ln 6 1544 1545 1546 2047 2047 0), .pnot (ln 15 1544 1545 1546 2047 2047 0), .por (ln 15 1 1545 1546 2047 2047 0)] &&
    refuses (.shfl (ln 2 1 2 3 4 1544 4)) [.shfl (ln 2 1 2 3 4 1544 5), .shfl (ln 2 1 2 3 4 5 4)] &&
    refuses (.lred (ln 6 1 2 3 2047 2047 5)) [.lred (ln 2 1 2 3 2047 2047 5), .lred (ln 6 1 2 3 2047 2047 6)] &&
    refuses (.vote (ln 15 2 1544 2047 2047 2047 2)) [.vote (ln 15 2 1544 2047 2047 2047 1), .vote (ln 15 3 1544 2047 2047 2047 2), .vote (ln 15 2 1544 2047 2047 2047 3)] := by decide
theorem test_wf_lane_memory : refuses (.laneLd (ln 14 1 2 2047 2047 2047 0)) [.laneLd (ln 15 1 2 2047 2047 2047 0), .laneLd (ln 2 1 3 2047 2047 2047 0)] &&
    refuses (.laneSt (ln 2 2047 2 3 2047 2047 0)) [.laneSt (ln 2 1 2 3 2047 2047 0), .sts (ln 2 2047 2 3 4 2047 0), .lds (ln 15 1 2 2047 2047 2047 0)] &&
    refuses (.ldTap (ln 15 2047 2 2047 2047 2047 0)) [.ldTap (ln 2 2047 2 2047 2047 2047 0), .pf (ln 15 1 2 2047 2047 2047 0)] &&
    refuses (.ldr (ln 12 1 2 3 2047 2047 0)) [.ldr (ln 13 1 2 3 2047 2047 0), .str (ln 2 2047 2 3 2047 2047 0)] &&
    refuses (.atom (ln 7 4 2 6 8 2047 1)) [.atom (ln 7 3 2 6 8 2047 1), .atom (ln 7 4 2 6 9 2047 1), .atom (ln 8 4 2 6 8 2047 1), .atom (ln 7 4 2 6 8 2047 4)] &&
    refuses (.kvx (ln 7 2 4 6 8 1544 0)) [.kvx (ln 6 2 4 6 8 1544 0), .kvx (ln 7 2 4 6 8 10 0)] && !wfInstr (.unassignedScalarWord 0) && !wfInstr (.unassignedLaneWord 0) := by
  decide

/-! ### Words of the spec decode (R27 to R33, R56 to R62) -/

theorem test_decode_scalar_alu :
    decodeTableWord 32 0b000000_000101_000110_000111_00001010 = some (.mul 5 6 7 2) ∧
    decodeTableWord 32 0b000000_000001_000010_000000_00110101 = some (.clz 1 2 0 1) ∧
    decodeTableWord 32 0b000001_000011_000010_000001_010_000_01 = some (.cmp 3 2 1 2 0 1) ∧
    decodeTableWord 32 0b000100_000101_000000_11010001010110 = some (.addiS64 5 0 0x3456) ∧
    decodeTableWord 32 0b001011_000001_000010_00000000_000111 = some (.sraB64Imm 1 2 7) ∧
    decodeTableWord 64 (0b111111_00000000000000000001001000 + 2 ^ 32 * 0x10503456) = some (.pfx 0x48 0x10503456) := by decide +kernel
theorem test_decode_scalar_memory :
    decodeTableWord 32 0b010110_000001_000010_00000000001000 = some (.ldB64 1 2 8) ∧
    decodeTableWord 32 0b011000_000001_000010_11111111111111 = some (.stB8 1 2 0x3FFF) ∧
    decodeTableWord 32 0b011100_000010_000001_00000000001100 = some (.lx 2 1 12) := by decide +kernel
theorem test_decode_sync_and_system :
    decodeTableWord 32 0b000010_000010_000011_000101_00000010 = some (.gtry 2 3 5) ∧
    decodeTableWord 32 0b000010_000000_000000_000000_00100011 = some (.fenceFull 0 0 0 3) ∧
    decodeTableWord 32 0b000010_000000_000001_000000_00110000 = some (.tokPass 0 1 0) ∧
    decodeTableWord 32 0b000011_000000_000110_110000_00001001 = some (.cclean 6) ∧
    decodeTableWord 32 0b000011_000000_000110_110011_00001001 = some (.czero 6) ∧
    decodeTableWord 32 0b011101_000000_0000_1000000000000001 = some (.land 0 2 1) ∧
    decodeTableWord 32 0b100000_0001_0000000000000000000100 = some (.b 1 4) := by decide +kernel
theorem test_decode_windows_matrix_nests :
    decodeTableWord 32 0b100010_000000_000011_000110_00000000 = some (.winBind 0 3 6) ∧
    decodeTableWord 32 0b100010_000000_000101_000110_00001000 = some (.mcjoin 0 5 6) ∧
    decodeTableWord 32 0b100011_000010_001000_001110_00000001 = some (.mmaN128 2 8 14) ∧
    decodeTableWord 32 0b100011_001001_000000_000000_00001000 = some (.mcommit 9 0 0) ∧
    decodeTableWord 32 0b100110_000011_010100_000_00000100000 = some (.mdrain 3 20 32) ∧
    decodeTableWord 32 0b100100_000111_001000_000001_00000001 = some (.nestGrow 7 8 1) ∧
    decodeTableWord 32 0b100101_011110_010100_011000_00000000 = some (.satom 30 20 24) := by decide +kernel
/-- Fields in the order of R33: opcode, type, destination, four sources, guards, no-writeback, hint, stall, yield, latch, modifier. -/
theorem test_decode_lane_arithmetic :
    decodeTableWord 96 0b0000010000_0010_00000000011_00000000100_00000000101_11111111111_11111111111_011111_011111_0_000_0000_0_111_000 =
      some (.laneAdd ⟨2, 3, 4, 5, 2047, 2047, 31, 31, 0, 0, 0, 0, 7, 0⟩) ∧
    decodeTableWord 96 0b0001000000_1000_00000000001_00000000010_00000000011_00000000100_11111111111_100001_011111_1_000_0101_1_010_000 =
      some (.fma ⟨8, 1, 2, 3, 4, 2047, 33, 31, 1, 0, 5, 1, 2, 0⟩) ∧
    decodeTableWord 96 0b0001100000_1010_00000000001_00000000010_11111111111_11111111111_00000001000_011111_011111_0_000_0000_0_111_000 =
      some (.cvt ⟨10, 1, 2, 2047, 2047, 8, 31, 31, 0, 0, 0, 0, 7, 0⟩) := by decide +kernel
theorem test_decode_lane_others :
    decodeTableWord 96 0b0001110001_1111_11000001000_11000001001_11000001010_11111111111_11111111111_011111_011111_0_000_0000_0_111_000 =
      some (.por ⟨15, 1544, 1545, 1546, 2047, 2047, 31, 31, 0, 0, 0, 0, 7, 0⟩) ∧
    decodeTableWord 96 0b0010000000_1000_00000000001_00000000010_11001001000_11010000010_11000001000_011111_011111_0_000_0000_0_111_010 =
      some (.shfl ⟨8, 1, 2, 1608, 1666, 1544, 31, 31, 0, 0, 0, 0, 7, 2⟩) ∧
    decodeTableWord 96 0b0010010010_1111_11111111111_00000000111_11111111111_11111111111_11111111111_011111_011111_0_000_0000_0_111_000 =
      some (.ldTap ⟨15, 2047, 7, 2047, 2047, 2047, 31, 31, 0, 0, 0, 0, 7, 0⟩) ∧
    decodeTableWord 96 0b0010011001_0111_00000000010_00000000100_00000000110_00000001000_11000001001_011111_011111_0_010_0000_0_111_000 =
      some (.kvx ⟨7, 2, 4, 6, 8, 1545, 31, 31, 0, 2, 0, 0, 7, 0⟩) := by decide +kernel

/-! ### One step -/

/-- A property of the state that a word answers with. -/
def after (o : Host.Outcome State Fault Refusal) (p : State → Bool) : Bool := match o with | .next t => p t | _ => false
def warp0 (t : State) : Warp := (t.dev.warps.get? 0).getD tWarp

/-- s1 is 2^63 - 1 and s2 is 1: the sum wraps; as 32 bits it is -1 + 1 (R217). -/
theorem test_add_wraps : after (exec (.add 3 1 2 0) (scalarAt { tWarp with sregs := [(1, 0x7FFFFFFFFFFFFFFF), (2, 1)] })) (fun t =>
    (warp0 t).s 3 == 0x8000000000000000 && (warp0 t).spc == tWarp.spc + 4) &&
    after (exec (.add 3 1 2 2) (scalarAt { tWarp with sregs := [(1, 0xFFFFFFFF), (2, 1)] })) (fun t => (warp0 t).s 3 == 0) := by decide +kernel
/-- A source that is also the destination; s0 discards writes (R28). -/
theorem test_sub_in_place : after (exec (.sub 1 1 1 1) (scalarAt { tWarp with sregs := [(1, 9)] })) (fun t => (warp0 t).s 1 == 0) &&
    after (exec (.sub 0 1 2 1) (scalarAt { tWarp with sregs := [(1, 9)] })) (fun t => (warp0 t).s 0 == 0) := by decide +kernel
/-- -1 shifted right by 65 is a shift by 1: arithmetic keeps the sign, logical does not (R217). -/
theorem test_shift_amount_wraps : after (exec (.sra 3 1 2 1) (scalarAt { tWarp with sregs := [(1, 0xFFFFFFFFFFFFFFFE), (2, 65)] })) (fun t =>
    (warp0 t).s 3 == 0xFFFFFFFFFFFFFFFF) && after (exec (.shr 3 1 2 1) (scalarAt { tWarp with sregs := [(1, 0xFFFFFFFFFFFFFFFE), (2, 65)] })) (fun t =>
    (warp0 t).s 3 == 0x7FFFFFFFFFFFFFFF) := by decide +kernel
/-- -1 < 1 signed, not unsigned (R219). -/
theorem test_cmp_signs : after (exec (.cmp 1 1 2 2 0 0) (scalarAt { tWarp with sregs := [(1, 0xFFFFFFFFFFFFFFFF), (2, 1)] })) (fun t => (warp0 t).qp 1) &&
    after (exec (.cmp 1 1 2 2 0 1) (scalarAt { tWarp with sregs := [(1, 0xFFFFFFFFFFFFFFFF), (2, 1)] })) (fun t => !(warp0 t).qp 1) := by decide +kernel
/-- The immediate is sign-extended from 14 bits, with a prefix from 40 (R218). -/
theorem test_addi_extends : after (exec (.addiS64 1 0 0x3FFF) (scalarAt tWarp)) (fun t => (warp0 t).s 1 == 0xFFFFFFFFFFFFFFFF) &&
    after (exec (.pfx 0x2000000 (encSI 4 1 0 1)) (scalarAt tWarp)) (fun t => (warp0 t).s 1 == 0xFFFFFF8000000001 && (warp0 t).spc == tWarp.spc + 8) := by decide +kernel
/-- trap 5 records USER and leaves the thread behind the word (R385, R386). -/
theorem test_trap_moves_on : after (exec (.trap 0 0 5) (scalarAt tWarp)) (fun t => (warp0 t).spc == tWarp.spc + 4 && (warp0 t).stop.isSome) := by decide +kernel
/-- Lane 0 of v3 := v1 + v2, a sum that wraps; v3 is also a source (R247). -/
theorem test_lane_add_wraps : after (exec (.laneAdd (ln 2 3 1 3 2047 2047 0)) (laneAt { tWarp with vregs := [(1, BitVec.ofNat 2048 0xFFFFFFFF), (3, BitVec.ofNat 2048 2)] }))
    (fun t => laneGet ((warp0 t).v 3) 0 == 1#32 && laneGet ((warp0 t).v 1) 0 == 0xFFFFFFFF#32) := by decide +kernel
/-- -1 as an 8-bit result fills the register with its sign; as .n8 with zeros (R35). -/
theorem test_lane_narrow_fill : after (exec (.laneSub (ln 0 3 0 1 2047 2047 0)) (laneAt { tWarp with vregs := [(1, BitVec.ofNat 2048 1)] }))
    (fun t => laneGet ((warp0 t).v 3) 0 == 0xFFFFFFFF#32) && after (exec (.laneSub (ln 4 3 0 1 2047 2047 0)) (laneAt { tWarp with vregs := [(1, BitVec.ofNat 2048 1)] }))
    (fun t => laneGet ((warp0 t).v 3) 0 == 0xFF#32) := by decide +kernel
/-- 1.5 * 2 + 0.25 in FP32 (R249). -/
theorem test_fma : after (exec (.fma (ln 8 4 1 2 3 2047 0)) (laneAt { tWarp with vregs := [(1, BitVec.ofNat 2048 0x3FC00000), (2, BitVec.ofNat 2048 0x40000000), (3, BitVec.ofNat 2048 0x3E800000)] }))
    (fun t => laneGet ((warp0 t).v 4) 0 == 0x40500000#32) := by decide +kernel
end Sys2Proof.Tests
end

