-- ==== Sys2Proof/Tests/WitnessScalar.lean ====
section
/-!
SUPPORT. Witnesses for the statements about the scalar stream: states and operands that meet all hypotheses of a clause together.
-/
namespace Sys2Proof.Tests
open Sys2Proof.Machine
set_option Elab.async false

def wA : Warp := { tWarp with sregs := [(1, 0x8000000000000001), (2, 0xFFFFFFFF80000003), (3, 0x1234567), (4, 40), (6, 0x10100)], q := 5 }

theorem witness_ScalarAluWordsWriteResult :
    Issuing (scalarAt wA) 0 wA ∧ wA.pendingS [(63 : BitVec 6).toNat, (0 : BitVec 6).toNat, (63 : BitVec 6).toNat] = false ∧
      ((1#2 = 1#2 ∨ 1#2 = 3#2) ∧ (3#2 = 1#2 ∨ 3#2 = 3#2) ∧ (0 : BitVec 6) = 0#6 ∧ (1 : BitVec 6) ≠ 0#6) := by decide +kernel

theorem witness_ComparesAndImmediatesWriteResult :
    Issuing (scalarAt wA) 0 wA ∧ wA.pendingS [(63 : BitVec 6).toNat, (1 : BitVec 6).toNat] = false ∧ (7 : BitVec 6).toNat < 8 ∧
      (5 : BitVec 3).toNat < 6 ∧ (63 : BitVec 14).toNat < 64 ∧ (7 : BitVec 6) ≠ 0#6 := by decide +kernel

/-- A jump table of three entries at 0x50000 whose last one leads to a landing word with label 0x77 at 0x10100. -/
def wJ0 : Warp := { wA with sregs := [(1, 2), (2, 0x50000), (3, 3), (4, 0x50001), (6, 0x50040)] }
def dJ : Dev := { (scalarAt wJ0).dev with
  mem := memWriteN (memWriteN (memWriteN (memWriteN tTables 0x50000 8 (3 * 2 ^ 32 + 0x77)) 0x50010 4 0x40) 0x10100 4 (29 * 2 ^ 26 + 0x77)) 0x50040 8 0x10077 }
def jtabAt (w : Warp) : State := { State.reset with dev := { dJ with warps := [(0, w)] } }
/-- It has read both lines; the first of them with poison in its lowest sector; its request is on its way. -/
def wJ : Warp := withLines dJ [0x1400, 0x1401] wJ0
def wJp : Warp := { wJ0 with rd := ⟨none, [(0x1400, 0, 1)]⟩ }
def wJa : Warp := { wJ0 with rd := ⟨some 5, []⟩ }
def sJs : State := jtabAt wJ

theorem witness_ControlWordsMoveTheThread :
    Issuing (scalarAt wA) 0 wA ∧ wA.stop = none ∧ wA.pendingS [63] = false ∧ wA.pendingS [(6 : BitVec 6).toNat] = false ∧
      bits (wA.s 6) 1 0 = 0 ∧ bits (wA.s 1) 1 0 ≠ 0 ∧ (3 : BitVec 6).toNat < 4 := by decide +kernel
theorem witness_ControlWordsMoveTheThread_asks :
    Issuing (jtabAt wJ0) 0 wJ0 ∧ wJ0.stop = none ∧ (jtabAt wJ0).dev.nestOf wJ0 = some tNest ∧ wJ0.pendingS [1, 2] = false ∧
      (wJ0.s 2).toNat % 8 = 0 ∧ aform (wJ0.s 2) = .va 0x50000 ∧ xlate (jtabAt wJ0).dev wJ0.xs wJ0.cluster 0 0x50000 .read = .hit 0x50000 tLeaf ∧
      toRead wJ0 0x50000 8 = [0x1400] ∧ wJ0.rd.op = none ∧ mustWait (jtabAt wJ0).dev 0 wJ0 [0x1400] = false ∧ wJ0.full .g = false ∧
      (Issuing (jtabAt wJa) 0 wJa ∧ toRead wJa 0x50000 8 ≠ [] ∧ wJa.rd.op ≠ none) ∧
      (Issuing (jtabAt wJp) 0 wJp ∧ wJp.stop = none ∧ toRead wJp 0x50000 8 = [] ∧ wJp.rd.bad 0x50000 8 = some 0x50000) := by decide +kernel
theorem witness_ControlWordsMoveTheThread_jtab :
    Issuing sJs 0 wJ ∧ wJ.stop = none ∧ sJs.dev.nestOf wJ = some tNest ∧ wJ.pendingS [1, 2] = false ∧ (wJ.s 4).toNat % 8 ≠ 0 ∧
      (wJ.s 2).toNat % 8 = 0 ∧ aform (wJ.s 2) = .va 0x50000 ∧ (let h := wJ.rd.value 0x50000 8
      h / 2 ^ 16 % 2 ^ 16 = 0 ∧ h / 2 ^ 32 ≤ (wJ.s 3).toNat ∧ (wJ.s 1).toNat < h / 2 ^ 32 ∧
        aform (wJ.s 2 + 8 + 4 * wJ.s 1) = .va 0x50010 ∧ (let target := BitVec.ofNat 64 (tNest.scb + 4 * wJ.rd.value 0x50010 4)
        target = 0x10100 ∧ tNest.scb ≤ target.toNat ∧ target.toNat < tNest.scb + tNest.sclen ∧
        xlate sJs.dev wJ.xs wJ.cluster (sJs.dev.partOf wJ) target.toNat .exec = .hit 0x10100 tLeaf ∧
        devReadN sJs.dev 0x10100 4 / 2 ^ 26 = 29 ∧ devReadN sJs.dev 0x10100 4 % 2 ^ 16 = h % 2 ^ 16)) ∧
      aform (wJ.s 6) = .va 0x50040 ∧ wJ.rd.value 0x50040 8 / 2 ^ 16 % 2 ^ 16 ≠ 0 ∧
      ¬ (devReadN sJs.dev 0x10000 4 / 2 ^ 26 = 29) := by decide +kernel
theorem witness_ControlWordsMoveTheThread_readable :
    HasRead sJs.dev wJ 0x50000 8 0x50000 ∧ HasRead sJs.dev wJ 0x50010 4 0x50010 ∧ HasRead sJs.dev wJ 0x50040 8 0x50040 :=
  ⟨hasRead_of tLeaf (by decide +kernel), hasRead_of tLeaf (by decide +kernel), hasRead_of tLeaf (by decide +kernel)⟩

/-- A warp that issues the block tBlock. -/
def wB : Warp := { tWarp with queue := [tBlock] }
theorem witness_IllegalWordsTrap :
    Issuing (scalarAt wA) 0 wA ∧ wA.stop = none ∧ (0 = 1 ↔ [0, 1, 2, 3, 34, 35, 36, 37].contains ((0xF8000000 : W32).extractLsb' 26 6).toNat = true) ∧
      (1 = 1 ↔ [0, 1, 2, 3, 34, 35, 36, 37].contains ((0xFC : W32).extractLsb' 26 6).toNat = true) ∧ (2#2 = 0#2 ∨ 2#2 = 2#2) ∧
      ((1 : BitVec 6) ≠ 0#6 ∧ (3#2 = 1#2 ∨ 3#2 = 3#2)) ∧ ((5 : BitVec 3).toNat < 6 ∧ (1 : BitVec 3) ≠ 0#3) ∧ 8 ≤ (8 : BitVec 6).toNat ∧
      [4, 5, 6, 7, 8, 12, 13, 14, 15, 16, 17, 18, 19, 20, 21, 22, 24, 25, 26, 27, 28].contains ((0 : W32).extractLsb' 26 6).toNat = false := by
  decide +kernel
theorem witness_IllegalWordsTrap_lane :
    LaneIssuing (laneAt tWarp) 0 wB tBlock ∧ wB.stop = none ∧
      (let f : LaneWord := { laneFields 0 with ty := 11 }
       10 < f.ty.toNat ∧ 7 < f.ty.toNat ∧ f.ty.toNat ≠ 6 ∧ f.ty.toNat ≠ 7) ∧ tyF (5#4 : BitVec 4).toNat = false ∧ (15#4 : BitVec 4).toNat = 15 ∧
      (let f : LaneWord := { laneFields 0 with ty := 10, hint := 1 }
       f.ty.toNat ≤ 10 ∧ ¬ (f.hint = 0#3 ∧ f.mdf = 0#3 ∧ f.s2 = 2047#11 ∧ f.s3 = 2047#11)) ∧
      (let f : LaneWord := { laneFields 0 with ty := 10, s2 := 2047, s3 := 2047, dst := 256 }
       f.hint = 0#3 ∧ f.mdf = 0#3 ∧ f.s2 = 2047#11 ∧ f.s3 = 2047#11 ∧ f.nowb = 0#1 ∧ 32 * tBlock.valloc ≤ f.dst.toNat) ∧
      (let f : LaneWord := { laneFields 0 with ty := 7, s2 := 2047, s3 := 2047, dst := 1 }
       tyW f.ty.toNat = 64 ∧ f.ty.toNat < 8 ∧ f.nowb = 0#1 ∧ f.dst.toNat % 2 = 1) := by decide +kernel

def wL : Warp :=
  { tWarp with sregs := [(1, 0x5003C), (2, 0x1122334455667788), (3, 0x50001), (5, 0x8000000000000000), (6, 0x1000000000000), (7, 0x80000000), (8, 0x80010000)] }
def sL : State := scalarAt wL
/-- The same with the line of the load in L1. -/
def sLc : State := { sL with dev := sL.dev.setCluster 0 { tCluster with l1 := [(0x1400, ⟨5, 1, 0, 0, 0⟩)] } }

theorem witness_ScalarMemoryWordsIssue :
    Issuing sL 0 wL ∧ loadForm (.ldS32 63 1 0) = some (20, 63, 1, 0, 4) ∧ wL.pendingS [63, 1] = false ∧ (wL.s 1 + 0).toNat % accessSize 20 = 0 ∧
      aform (wL.s 1 + 0) = .va 0x5003C ∧ xlate sL.dev wL.xs wL.cluster (sL.dev.partOf wL) 0x5003C .read = .hit 0x5003C tLeaf ∧
      mustWait sL.dev 0 wL [0x5003C / 64] = false ∧ wL.full .g = false ∧ l1Find sL.dev wL.cluster (0x5003C / 64) = none ∧
      storeForm (.stB32 2 1 0) = some (26, 2, 1, 0, 4) ∧ wL.pendingS [2, 1] = false ∧ (wL.s 1 + 0).toNat % accessSize 26 = 0 ∧
      xlate sL.dev wL.xs wL.cluster (sL.dev.partOf wL) 0x5003C .write = .hit 0x5003C tLeaf := by decide +kernel
theorem witness_ScalarMemoryWordsIssue_l1 :
    Issuing sLc 0 wL ∧ xlate sLc.dev wL.xs wL.cluster (sLc.dev.partOf wL) 0x5003C .read = .hit 0x5003C tLeaf ∧
      mustWait sLc.dev 0 wL [0x5003C / 64] = false ∧ (l1Find sLc.dev wL.cluster (0x5003C / 64)).map (·.order) = some 0 ∧
      newerAsked sLc.dev 0 (0x5003C / 64) 0 = false ∧ pinBefore sLc.dev 0 0 (0x5003C / 64) sLc.dev.nextId = false := by decide +kernel

/-- The page may not be written. -/
def sRo : State := { sL with dev := { sL.dev with clusters := [(0, { tCluster with tlb := [⟨0, 0, { tLeaf with w := false }⟩] })] } }
/-- The page at 0x80000000 is not mapped. -/
def wNm : Warp := { wL with xs := [(0x8000, .fault .notMapped)] }
theorem witness_ScalarAccessesTrapOrPark :
    Issuing sL 0 wL ∧ wL.stop = none ∧ loadForm (.ldS16 9 3 0) = some (18, 9, 3, 0, 4) ∧ wL.pendingS [9, 3, 5, 6, 7, 1] = false ∧
      (wL.s 3 + 0).toNat % accessSize 18 ≠ 0 ∧ loadForm (.ldS8 9 5 0) = some (16, 9, 5, 0, 4) ∧ (wL.s 5 + 0).toNat % accessSize 16 = 0 ∧
      aform (wL.s 5 + 0) = .tagged 0 0 := by decide +kernel
theorem witness_ScalarAccessesTrapOrPark_address :
    Issuing sL 0 wL ∧ storeForm (.stB64 9 6 0) = some (27, 9, 6, 0, 4) ∧ (wL.s 6 + 0).toNat % accessSize 27 = 0 ∧ aform (wL.s 6 + 0) = .bad := by decide +kernel
theorem witness_ScalarAccessesTrapOrPark_page :
    Issuing sRo 0 wL ∧ storeForm (.stB32 9 1 0) = some (26, 9, 1, 0, 4) ∧ aform (wL.s 1 + 0) = .va 0x5003C ∧
      xlate sRo.dev wL.xs wL.cluster (sRo.dev.partOf wL) 0x5003C .write = .fault .writeProt ∧ FCode.writeProt ≠ .notMapped := by decide +kernel
theorem witness_ScalarAccessesTrapOrPark_park :
    Issuing (scalarAt wNm) 0 wNm ∧ storeForm (.stB64 9 7 8) = some (27, 9, 7, 8, 4) ∧ wNm.pendingS [9, 7] = false ∧
      (wNm.s 7 + 8).toNat % accessSize 27 = 0 ∧ aform (wNm.s 7 + 8) = .va 0x80000008 ∧
      xlate (scalarAt wNm).dev wNm.xs wNm.cluster ((scalarAt wNm).dev.partOf wNm) 0x80000008 .write = .fault .notMapped := by decide +kernel

def retSub (p : BitVec 4) : Sub := { Sub.new 0x1400 .load with st := .performed, data := BitVec.ofNat 512 (0xF1F2F3F4F5F6F7F8 * 2 ^ 64), poison := p }
def retOp (mj : Nat) (p : BitVec 4) : MemOp :=
  { (MemOp.new 0 wL 0 .scalar .g (.sload mj 9) 0x10000 0) with addr := [(0, 0x50008)], subs := [(0x1400, retSub p)] }
def retW : Warp := { wL with outG := [⟨1, false⟩], pendS := [(1, 9)] }
def retState (mj : Nat) (p : BitVec 4) : State := devAt { sL.dev with nextId := 2, warps := [(0, retW)], ops := [(1, retOp mj p)] }
theorem witness_ScalarLoadReturnWritesRegister :
    ([16, 22].all fun mj => (retState mj 0).dev.ops.get? 1 == some (retOp mj 0) && decide (16 ≤ mj ∧ mj ≤ 22) && (retOp mj 0).kind == .sload mj 9 &&
      (retOp mj 0).subs == (0x1400, retSub 0) :: [] && (retSub 0).st == .performed && (retState mj 0).dev.warps.get? (retOp mj 0).warp == some retW) = true ∧
      (retState 16 1).dev.ops.get? 1 = some (retOp 16 1) ∧ (retSub 0).poison.getLsbD (0x50008 % 64 / 16) = false ∧
      (retSub 1).poison.getLsbD (0x50008 % 64 / 16) = true ∧ retW.stop = none ∧ replyDue (retState 16 1).dev (retOp 16 1) (retSub 1) = true ∧
      ([16, 22].all fun mj => replyDue (retState mj 0).dev (retOp mj 0) (retSub 0)) = true := by decide +kernel
/-- A word's read of a line has come back, or is on its way. -/
def fetchOp (st : SubSt) : MemOp := { retOp 16 0 with kind := .fetch false, subs := [(0x1400, { retSub 0 with st := st })] }
def fetchState (st : SubSt) : State := devAt { sL.dev with nextId := 2, warps := [(0, { retW with rd := ⟨some 1, []⟩ })], ops := [(1, fetchOp st)] }
theorem witness_ScalarLoadReturnWritesRegister_lines :
    (fetchState .performed).dev.ops.get? 1 = some (fetchOp .performed) ∧ (fetchOp .performed).kind = .fetch false ∧
      ((fetchState .performed).dev.warps.get? 0).map (·.rd.op) = some (some 1) ∧
      (∀ e ∈ (fetchOp .performed).subs, e.2.st = .performed ∧ replyDue (fetchState .performed).dev (fetchOp .performed) e.2 = true) ∧
      (∃ e ∈ (fetchOp .sent).subs, e.2.st ≠ .performed) ∧ (fetchState .sent).dev.ops.get? 1 = some (fetchOp .sent) := by decide +kernel

/-- The last of 16 places of the lane queue is free. -/
def wLx : Warp := { tWarp with queue := List.replicate 15 tBlock }
theorem witness_LxEnqueuesASnapshot :
    Issuing (scalarAt wLx) 0 wLx ∧ (scalarAt wLx).dev.nestOf wLx = some tNest ∧ wLx.pendS = [] ∧ wLx.queue.length < 16 ∧
      xlate (scalarAt wLx).dev wLx.xs wLx.cluster ((scalarAt wLx).dev.partOf wLx) 0x12080 .exec = .hit 0x12080 tLeaf ∧
      (0x12080 + 12 * ((63 : BitVec 6).toNat + 1) - 1) / 65536 = 0x12080 / 65536 ∧
      aform (BitVec.ofNat 64 tNest.lcb + (wLx.s (0 : BitVec 6).toNat + (0x20 : BitVec 14).signExtend 64) * 4) = .va 0x12080 ∧
      aform (BitVec.ofNat 64 tNest.lcb + (wLx.s (0 : BitVec 6).toNat + ((0 : BitVec 26) ++ (0x20 : BitVec 14)).signExtend 64) * 4) = .va 0x12080 := by
  decide +kernel
/-- A block of two words that crosses a page: 0x1FFF8 to 0x20010. -/
theorem witness_LxEnqueuesASnapshot_pages :
    xlate (scalarAt wLx).dev wLx.xs wLx.cluster ((scalarAt wLx).dev.partOf wLx) 0x1FFF8 .exec = .hit 0x1FFF8 tLeaf ∧
      (let last := 0x1FFF8 + 12 * ((1 : BitVec 6).toNat + 1) - 1
       last / 65536 ≠ 0x1FFF8 / 65536 ∧ last < 2 ^ 48 ∧
        xlate (scalarAt wLx).dev wLx.xs wLx.cluster ((scalarAt wLx).dev.partOf wLx) last .exec = .hit last tLeaf) := by decide +kernel

def wS : Warp :=
  { tWarp with sregs := [(1, 0x1FF), (2, 0x200), (3, 0x1FFFFF), (4, 0x200000), (5, 64), (6, 65), (7, 1)], outG := [⟨1, false⟩, ⟨2, true⟩] }
/-- Its lane stream has a block to issue. -/
def wSq : Warp := { wS with queue := [tBlock] }
theorem witness_StatusRegistersAreReadAndWritten :
    Issuing (scalarAt wS) 0 wS ∧ wS.pendingS [(63 : BitVec 6).toNat] = false ∧ (scalarAt wS).dev.crewOf wS = some tCrew ∧
      (scalarAt wS).dev.nests.get? tCrew.id.nest = some tNest ∧
      (wS.cluster < 256 ∧ wS.pipe < 256 ∧ wS.cslot < 256 ∧ tCrew.cidx < 16 ∧ wS.wcrew < 16 ∧ wS.wslot < 256) ∧
      lanesDrained wS = true ∧ lanesDrained wSq = false ∧ Issuing (scalarAt wSq) 0 wSq ∧ (scalarAt wSq).dev.crewOf wSq = some tCrew ∧
      (wS.outG.length < 4096 ∧ wS.outX.length < 4096 ∧ wS.outA.length < 4096 ∧ wS.outT.length < 4096) ∧
      ((scalarAt wS).dev.part tCrew.id.part).enabled = true ∧ (48 ≤ (51 : BitVec 6).toNat ∧ (51 : BitVec 6).toNat ≤ 51) ∧
      (12 ≤ (12 : BitVec 6).toNat ∧ ((12 : BitVec 6).toNat < 48 ∨ 51 < (12 : BitVec 6).toNat)) ∧
      (12 ≤ (52 : BitVec 6).toNat ∧ ((52 : BitVec 6).toNat < 48 ∨ 51 < (52 : BitVec 6).toNat)) ∧ wS.stop = none := by decide +kernel
theorem witness_StatusRegistersAreReadAndWritten_swr :
    wS.pendingS [1, 2, 3, 4, 5, 6, 7] = false ∧ bits (wS.s 1) 63 9 = 0 ∧ bits (wS.s 2) 63 9 ≠ 0 ∧ bits (wS.s 3) 63 21 = 0 ∧ bits (wS.s 4) 63 21 ≠ 0 ∧
      (1 ≤ (wS.s 7).toNat ∧ (wS.s 5).toNat ≤ 64) ∧ (wS.s 0).toNat = 0 ∧ 64 < (wS.s 6).toNat ∧ bits (wSq.s 1) 63 9 = 0 ∧
      ((5 : BitVec 6) ≠ 2#6 ∧ (5 : BitVec 6) ≠ 3#6 ∧ (5 : BitVec 6) ≠ 4#6 ∧ (5 : BitVec 6).toNat < 48 ∧ (47 : BitVec 6).toNat < 48 ∧
        51 < (52 : BitVec 6).toNat) := by decide +kernel

/-- s1, s2: from 0x5FF90 the last 0x70 bytes of a page; s3, s4: two whole lines; s5, s6: an empty range. -/
def wC : Warp := { tWarp with sregs := [(1, 0x5FF90), (2, 0x70), (3, 0x50000), (4, 0x80), (5, 0x50000), (6, 0)] }
def sC : State := scalarAt wC
theorem witness_CacheAndSystemWordsAct :
    Issuing sC 0 wC ∧ (5 : BitVec 6).toNat < 63 ∧ wC.pendingS [1, 2, 3, 4, 5, 6] = false ∧ (wC.s 6).toNat % 2 ^ 32 = 0 ∧
      0 < (wC.s 2).toNat % 2 ^ 32 ∧ aform (wC.s 1) = .va 0x5FF90 ∧ (0x5FF90 + 0x70 + 63) / 64 * 64 ≤ (0x5FF90 / 65536 + 1) * 65536 ∧
      (let lines := (List.range (((0x5FF90 + 0x70 + 63) / 64 * 64 - 0x5FF90 / 64 * 64) / 64)).map (fun i => (0x50000 + (0x5FF90 / 64 * 64 - 0x5FF90 / 65536 * 65536)) / 64 + i)
       lines = [0x17FE, 0x17FF] ∧ mustWait sC.dev 0 wC lines = false ∧ ∀ x ∈ lines, isHbm (x * 64) = true) ∧ wC.full .g = false ∧
      xlate sC.dev wC.xs wC.cluster (sC.dev.partOf wC) (0x5FF90 / 65536 * 65536) .read = .hit 0x50000 tLeaf ∧
      xlate sC.dev wC.xs wC.cluster (sC.dev.partOf wC) (0x50000 / 65536 * 65536) .write = .hit 0x50000 tLeaf ∧ aform (wC.s 3) = .va 0x50000 ∧
      mustWait sC.dev 0 wC [0x1400, 0x1401] = false ∧ (∀ x ∈ [0x1400, 0x1401], isHbm (x * 64) = true) ∧ 0x50000 % 64 = 0 ∧
      (wC.s 4).toNat % 2 ^ 32 % 64 = 0 ∧ 0 < (wC.s 4).toNat % 2 ^ 32 := by decide +kernel
theorem witness_CacheAndSystemWordsAct_traps :
    wC.stop = none ∧ lanesDone wC = true ∧ Issuing (scalarAt wSq) 0 wSq ∧ wSq.stop = none ∧ lanesDone wSq = false ∧ wC.pendingS [1, 2, 3, 4] = false ∧
      wSq.pendingS [1, 2, 3, 4] = false := by decide +kernel

def wG : Warp := { wC with sregs := wC.sregs.set 7 1 }
def doneCrew : Crew := { tCrew with gates := [(1, ⟨2, 0, 1⟩)] }
def sGd : State := { scalarAt wG with dev := (scalarAt wG).dev.setCrew 0 doneCrew }
def savingCrew : Crew := { tCrew with save := .pending }
def sGs : State := { scalarAt wG with dev := (scalarAt wG).dev.setCrew 0 savingCrew }
theorem witness_GateWordsArriveConsumeOrTrap :
    Issuing (scalarAt wG) 0 wG ∧ (1 : BitVec 6).toNat < 16 ∧ (7 : BitVec 6).toNat < 8 ∧ (scalarAt wG).dev.crewOf wG = some tCrew ∧ (tCrew.gate 1).n ≠ 0 ∧
      wG.pendingS [7, 6] = false ∧ fenceReady (scalarAt wG).dev 0 wG true .g = true ∧ gateReady (scalarAt wG).dev wG 1 = false ∧
      Nat.min (wG.s 6).toNat (2 ^ 24) = 0 ∧ 0 < Nat.min (wG.s 7).toNat (2 ^ 24) ∧ tCrew.save = .none ∧
      (Issuing sGs 0 wG ∧ sGs.dev.crewOf wG = some savingCrew ∧ (savingCrew.gate 1).n ≠ 0 ∧ gateReady sGs.dev wG 1 = false ∧ savingCrew.save ≠ .none) ∧
      (Issuing sGd 0 wG ∧ sGd.dev.crewOf wG = some doneCrew ∧ (doneCrew.gate 1).n ≠ 0 ∧ gateReady sGd.dev wG 1 = true ∧
        fenceReady sGd.dev 0 wG false .g = true) ∧
      (wG.stop = none ∧ (15 : BitVec 6).toNat < 16 ∧ (tCrew.gate 15).n = 0) := by decide +kernel
/-- A lane block still to issue makes a release and a fence wait. -/
theorem witness_GateWordsArriveConsumeOrTrap_wait :
    Issuing (scalarAt wSq) 0 wSq ∧ (scalarAt wSq).dev.crewOf wSq = some tCrew ∧ fenceReady (scalarAt wSq).dev 0 wSq true .g = false ∧
      wSq.pendingS [7] = false := by decide +kernel

/-- Three arrivals at gate 1 (of two) in one clock, with warp 0 parked on it. -/
def arrCrew : Crew := { tCrew with arrivals := [(1, 3)] }
def wPark : Warp := { wC with park := .gate 1 none }
def sArr : State := devAt { tDev with crews := [(0, arrCrew)], warps := [(0, wPark)] }
def wTry : Warp := { wC with park := .gate 1 (some (1000, 2)) }
theorem witness_ArrivalsAreCounted :
    sArr.dev.crews.get? 0 = some arrCrew ∧ arrCrew.arrivals = [(1, 3)] ∧ (arrCrew.gate 1).n ≠ 0 ∧ arrCrew.warps.Nodup ∧ 0 ∈ arrCrew.warps ∧
      sArr.dev.warps.get? 0 = some wPark ∧ wPark.park = .gate 1 none ∧ wPark.crewKey = 0 ∧ wPark.wph.getD 1 0 = (arrCrew.gate 1).gph ∧
      (let n := ((arrCrew.gate 1).cnt + 3) / (arrCrew.gate 1).n
       0 < n ∧ n < 2 ^ 31) ∧
      (let s := devAt { tDev with warps := [(0, wTry)] }
       s.dev.warps.get? 0 = some wTry ∧ wTry.park = .gate 1 (some (1000, 2)) ∧ 1000 ≤ s.dev.clock) := by decide +kernel

def wW : Warp := { wC with outG := [⟨1, false⟩, ⟨2, false⟩], sregs := [(1, 2), (2, 1)] }
theorem witness_CwaitAndFencesWait :
    Issuing (scalarAt wW) 0 wW ∧ wW.pendingS [1, 2] = false ∧ (wW.queue = [] ∧ wW.lpark = .run ∧ wW.outG.length ≤ (wW.s 1).toNat) ∧
      ¬ (wW.outG.length ≤ (wW.s 2).toNat) ∧ (0 : BitVec 3).toNat < 2 ∧ 2 ≤ (2 : BitVec 3).toNat ∧ (5 : BitVec 3).toNat < 6 ∧
      ([0, 2, 5].all fun sc => fenceReady sC.dev 0 wC true (scopeOf sc) && fenceReady sC.dev 0 wC false (scopeOf sc)) = true := by decide +kernel
theorem witness_CwaitAndFencesWait_wait :
    Issuing (scalarAt wSq) 0 wSq ∧ fenceReady (scalarAt wSq).dev 0 wSq true (scopeOf 5) = false ∧
      fenceReady (scalarAt wSq).dev 0 wSq false (scopeOf 5) = false := by decide +kernel

def wT : Warp := { wC with sregs := [(1, 0), (2, 1), (3, 40), (4, 41)] }
def tokCrew : Crew := { tCrew with token := 5 }
def sTok : State := { scalarAt wT with dev := (scalarAt wT).dev.setCrew 0 tokCrew }
def wGrow : Warp := { wT with park := .grow 40 2 }
def sGrow : State := devAt ({ tDev with warps := [(0, wGrow)] }.setPipe 0 0 { Pipe.empty with grow := [(0, 40)] })
/-- Two warps of a pipe with 32 granules left wait for 40 and for 30. -/
def wLate : Warp := { wT with park := .grow 30 3, wslot := 1, wcrew := 4 }
def sFull : State := devAt ({ tDev with warps := [(0, wGrow), (1, wLate)] }.setPipe 0 0 { Pipe.empty with grow := [(0, 40), (1, 30)] })
theorem witness_TokenAndGranulesMove :
    Issuing (scalarAt wT) 0 wT ∧ (scalarAt wT).dev.crewOf wT = some tCrew ∧ wT.pendingS [0, 1, 2, 3, 4] = false ∧
      (wT.s 1).toNat < tCrew.warps.length ∧ tCrew.token = wT.wcrew ∧ tCrew.warps.length ≤ (wT.s 2).toNat ∧ wT.stop = none ∧
      (Issuing sTok 0 wT ∧ sTok.dev.crewOf wT = some tokCrew ∧ (wT.s 1).toNat < tokCrew.warps.length ∧ tokCrew.token ≠ wT.wcrew) ∧
      (7 : BitVec 6).toNat < 8 ∧ (wT.s 0).toNat = 0 ∧ (0 < (wT.s 4).toNat ∧ 48 < wT.valloc + (wT.s 4).toNat) ∧
      (0 < (wT.s 3).toNat ∧ wT.valloc + (wT.s 3).toNat ≤ 48) ∧ lanesDrained wT = true ∧ Issuing (scalarAt wSq) 0 wSq ∧ lanesDrained wSq = false := by
  decide +kernel
theorem witness_TokenAndGranulesMove_grow :
    (sGrow.dev.pipe 0 0).grow = (0, 40) :: [] ∧ sGrow.dev.warps.get? 0 = some wGrow ∧ wGrow.park = .grow 40 2 ∧ 40 ≤ freeGranules sGrow.dev 0 0 ∧
      (sFull.dev.pipe 0 0).grow = [(0, 40)] ++ [(1, 30)] ∧ sFull.dev.warps.get? 1 = some wLate ∧ wLate.park = .grow 30 3 ∧
      (sFull.dev.warps.all fun e => decide (e.2.cluster = 0) && decide (e.2.pipe = 0) && (match e.2.park with | .grow .. => true | _ => false)) = true ∧
      ((([(0, 40)] ++ [(1, 30)] : List (Nat × Nat)).head?).all fun e => decide (freeGranules sFull.dev 0 0 < e.2)) = true := by
  decide +kernel
end Sys2Proof.Tests
end

