-- ==== Sys2Proof/Tests/WitnessWords.lean ====
section
/-!
SUPPORT. Witnesses for the statements about window, group, matrix, nest, routine and collective words.
-/
namespace Sys2Proof.Tests
open Sys2Proof.Machine
set_option Elab.async false

/-! ### Windows and groups -/

def wWin : Warp := { tWarp with sregs := [(1, 0x50000), (2, 0x50004)] }
/-- A description of one row of 64 bytes at 0x60000. -/
def descN : Nat := 0x60000 + 64 * 2 ^ 160 + (64 + 2 ^ 16 + 2 ^ 32 + 2 ^ 48) * 2 ^ 256 + (64 + 2 ^ 16 + 2 ^ 32 + 2 ^ 48) * 2 ^ 320 + 2 ^ 27 * 2 ^ 480
def win0 : Win := Win.bound (BitVec.ofNat 512 descN)
/-- The crew with the window x as its number 15, the last. -/
def crewWin (x : Win) : Crew := { tCrew with wins := [(15, x)] }
def sWinOf (w : Warp) (c : Crew) : State := { scalarAt w with dev := { (scalarAt w).dev with mem := memWriteN tTables 0x50000 64 descN, crews := [(0, c)] } }
def sWin (c : Crew) : State := sWinOf wWin c
/-- It has read the description's line. -/
def wWinR : Warp := withLines (sWin tCrew).dev [0x1400] wWin
def winHeld : Win := { win0 with state := .present, holds := 1 }
def winReady : Win := { win0 with state := .present }

theorem witness_WindowAndGroupWordsAct_bind :
    Issuing (sWin tCrew) 0 wWin ∧ (sWin tCrew).dev.crewOf wWin = some tCrew ∧ (15 : BitVec 6).toNat < 16 ∧ wWin.pendingS [1, 2, 63] = false ∧
      (wWin.s 1).toNat % 64 = 0 ∧ aform (wWin.s 1) = .va 0x50000 ∧ (wWin.s 2).toNat % 64 ≠ 0 ∧ wWin.stop = none := by decide +kernel
theorem witness_WindowAndGroupWordsAct_state :
    (tCrew.win 15).valid = false ∧ bindStatus (BitVec.ofNat 512 (wWinR.rd.value 0x50000 64)) tCrew.ssize [] (fun g => (tCrew.gate g).n != 0) = 0 ∧
      (sWin (crewWin winHeld)).dev.crewOf wWin = some (crewWin winHeld) ∧
      (((crewWin winHeld).win 15).valid = true ∧ ((crewWin winHeld).win 15).holds ≠ 0) ∧ (sWin (crewWin winReady)).dev.crewOf wWin = some (crewWin winReady) ∧
      (((crewWin winReady).win 15).valid = true ∧ ((crewWin winReady).win 15).state ≠ .filling ∧ ((crewWin winReady).win 15).holds = 0) := by decide +kernel
/-- The description has been read, and the window fills. -/
def wBind : Warp := { wWin with bind := some (BitVec.ofNat 512 descN) }
def winFill : Win := { win0 with state := .filling, filler := .copy }
theorem witness_WindowAndGroupWordsAct_wait : Issuing (scalarAt wBind) 0 wBind ∧ (scalarAt wBind).dev.crewOf wBind = some tCrew ∧
    wBind.bind = some (BitVec.ofNat 512 descN) ∧ wWin.bind = none ∧ (sWin (crewWin winFill)).dev.crewOf wWin = some (crewWin winFill) ∧
    ((crewWin winFill).win 15).valid = true ∧ ((crewWin winFill).win 15).state = .filling := by decide +kernel
theorem witness_WindowAndGroupWordsAct_readable : HasRead (sWinOf wWinR tCrew).dev wWinR 0x50000 64 0x50000 := hasRead_of tLeaf (by decide +kernel)
theorem witness_WindowAndGroupWordsAct_asks : Issuing (sWinOf wWinR tCrew) 0 wWinR ∧ wWinR.bind = none ∧
    xlate (sWin tCrew).dev wWin.xs wWin.cluster ((sWin tCrew).dev.partOf wWin) 0x50000 .read = .hit 0x50000 tLeaf ∧ wWin.bind = none ∧
    wWin.rd.line 0x1400 = none ∧ wWin.rd.op = none ∧ mustWait (sWin tCrew).dev 0 wWin [0x1400] = false ∧ wWin.full .g = false ∧ 0x50000 % 64 = 0 := by
  decide +kernel

/-- s2 joins group 3 as member 1 of 2 and leader with gate 1; s3 as one of three. -/
def wGp : Warp := { tWarp with sregs := [(1, 0x50003), (2, 0x0003000200014102), (3, 0x0003000200010103), (4, 0)] }
def grp0 : Group := ⟨2, 2, 3, 0x50000, [(0, (5, ⟨0, 0, 0, 9⟩, false, 0))], 0, [], []⟩
def crewGp : Crew := { tCrew with groups := [(3, 1)] }
def grp1 : Group := { grp0 with members := [(0, (5, ⟨0, 0, 0, 9⟩, false, 0)), (1, (0, tCrew.id, true, 1))] }
def sGp (g : List (Nat × Group)) (c : Crew) : State :=
  { scalarAt wGp with dev := { (scalarAt wGp).dev.setPart 0 { tPart with groups := g } with crews := [(0, c)] } }
theorem witness_WindowAndGroupWordsAct_join :
    Issuing (sGp [] tCrew) 0 wGp ∧ (sGp [] tCrew).dev.crewOf wGp = some tCrew ∧ wGp.pendingS [1, 2, 3, 4] = false ∧
      (let va := wGp.s 1
       let vb := wGp.s 2
       bits va 63 48 = 0 ∧ bit vb 7 = false ∧ bit vb 15 = false ∧ bits vb 31 20 = 0 ∧ 1 ≤ bits vb 6 0 ∧ bits vb 6 0 ≤ 64 ∧
        bits vb 13 8 < bits vb 6 0 ∧ (bit vb 14 = true → (tCrew.gate (bits vb 19 16)).n ≠ 0)) := by decide +kernel
theorem witness_WindowAndGroupWordsAct_groups :
    xlate (sGp [] tCrew).dev wGp.xs wGp.cluster ((sGp [] tCrew).dev.partOf wGp) (bits (wGp.s 1) 47 6 * 64) .write = .hit 0x50000 tLeaf ∧
      (sGp [] tCrew).dev.group 0 3 = none ∧ (sGp [(3, grp0)] tCrew).dev.group 0 3 = some grp0 ∧
      (grp0.cpa = 0x50000 ∧ grp0.count = bits (wGp.s 2) 6 0 ∧ grp0.timer = bits (wGp.s 2) 47 32 ∧ grp0.linger = bits (wGp.s 2) 63 48) ∧
      grp0.members.get? 1 = none ∧ (∀ m ∈ grp0.members, m.2.2.1 ≠ tCrew.id) := by decide +kernel
theorem witness_WindowAndGroupWordsAct_refuse :
    wGp.stop = none ∧ grp0.count ≠ bits (wGp.s 3) 6 0 ∧ bits (wGp.s 4) 6 0 = 0 ∧ bits (wGp.s 1) 63 48 = 0 ∧ bits (wGp.s 3) 31 20 = 0 ∧
      bits (wGp.s 3) 13 8 < bits (wGp.s 3) 6 0 := by decide +kernel
theorem witness_WindowAndGroupWordsAct_leave :
    (∀ e ∈ tCrew.groups, e.1 ≠ 3) ∧ (sGp [(3, grp1)] crewGp).dev.crewOf wGp = some crewGp ∧ (3, 1) ∈ crewGp.groups ∧ acceptedFill crewGp 3 = false ∧
      leaveReady (sGp [(3, grp1)] crewGp).dev [crewGp] = true ∧ (sGp [(3, grp1)] crewGp).dev.group 0 3 = some grp1 ∧ (grp1.members.any fun e => e.2.2.1 != crewGp.id) = true := by decide +kernel
/-- A window of the group that the crew asked for and the group accepted. -/
def crewAsked : Crew := { crewGp with wins := [(2, { Win.bound (BitVec.ofNat 512 (descN + (3 * 2 ^ 16 + 2 ^ 22) * 2 ^ 480)) with state := .filling, filler := .fill })] }

theorem witness_WindowAndGroupWordsAct_accepted : (sGp [(3, grp1)] crewAsked).dev.crewOf wGp = some crewAsked ∧ (3, 1) ∈ crewAsked.groups ∧
    acceptedFill crewAsked 3 = true := by decide +kernel
/-- The crew is the last member, and the record of a failing load of the group is still to be written. -/
def grpLast : Group := { grp1 with members := [(1, (0, tCrew.id, true, 1))] }
def recFailing : GRec := ⟨3, .failing, 0x60000, 64, 1, tCrew.id, 2, 0, 2, 2, 2, 0, 0, 0, 0, 2, false, false, 0, [], [], 0, false, none⟩
def sGlast : State :=
  let s := sGp [(3, grpLast)] crewGp
  { s with dev := s.dev.setPan (recordPan s.dev 0 3) { Pan.empty with records := [recFailing] } }
theorem witness_WindowAndGroupWordsAct_last : Issuing sGlast 0 wGp ∧ sGlast.dev.crewOf wGp = some crewGp ∧ leaveReady sGlast.dev [crewGp] = false := by
  decide +kernel

/-! ### Matrix words -/

/-- The format block for E8M0 scales with both operands of 4 bits. -/
def fb : Nat := (9 * 2 ^ 20 + 9 * 2 ^ 16) * 2 ^ 224 + 64 * 2 ^ 128 + 64 * 2 ^ 160
def wM : Warp :=
  { tWarp with sregs := [(4, 0x60000), (5, 0x70000), (6, 0x50000), (8, 0xFFFFFFFFFFFFFFFF), (9, 0xFFFF), (10, 0x60000), (11, 0x70000), (12, 0x50040), (14, 0x50010)] }
def sMof (w : Warp) : State := { scalarAt w with dev := { (scalarAt w).dev with mem := memWriteN (memWriteN tTables 0x50000 32 fb) 0x50040 32 (fb + 2 ^ 224) } }
def sM : State := sMof wM
/-- It has read both format blocks. -/
def wMr : Warp := withLines sM.dev [0x1400, 0x1401] wM
/-- The matrix queue is full. -/
def sMf : State := { sM with dev := sM.dev.setCluster 0 { tCluster with mq := (List.range 64).map (· + 100) } }
def mmaGood (n : Nat) : Bool :=
  let x : BitVec 256 := BitVec.ofNat 256 (wMr.rd.value 0x50000 32)
  let r := mmaRanges n (wM.s 4) (wM.s 5) (wM.s 8) x
  fbOk x && (mmaMisaligned (opndA (wM.s 4) x) (opndB (wM.s 5) x)).isNone && (r.all fun r => !r.1 || decide (r.2.1 + r.2.2 ≤ tCrew.ssize)) &&
    decide ((mmaLines (mmaAll n (wM.s 4) (wM.s 5) (wM.s 8) x)).length ≤ 4096)
theorem witness_MatrixWordsQueueOneOperation :
    Issuing sM 0 wM ∧ sM.dev.crewOf wM = some tCrew ∧ ((0 : BitVec 6).toNat < 16 ∧ (0 : BitVec 6).toNat % 2 = 0 ∧ (4 : BitVec 6).toNat < 62 ∧ (8 : BitVec 6).toNat % 2 = 0) ∧
      wM.pendingS [4, 5, 6, 8] = false ∧ (tCrew.tiles.get? 0 ≠ none ∧ tCrew.tiles.get? 1 ≠ none ∧ tCrew.tiles.get? 15 = none) ∧
      ((wM.s 6).toNat % 32 = 0 ∧ aform (wM.s 6) = .va 0x50000) ∧ mmaGood 1 = true ∧ mmaGood 2 = true := by decide +kernel
theorem witness_MatrixWordsQueueOneOperation_traps :
    wM.stop = none ∧ wM.pendingS [10, 11, 12, 13, 14] = false ∧ (wM.s 14).toNat % 32 ≠ 0 ∧
      ((wM.s 12).toNat % 32 = 0 ∧ aform (wM.s 12) = .va 0x50040) ∧ fbOk (BitVec.ofNat 256 (wMr.rd.value 0x50040 32)) = false ∧
      (sM.dev.cluster wM.cluster).mq.length < 64 ∧ 64 ≤ (sMf.dev.cluster wM.cluster).mq.length ∧ sMf.dev.crewOf wMr = some tCrew := by
  decide +kernel
theorem witness_MatrixWordsQueueOneOperation_asks :
    (xlate sM.dev wM.xs wM.cluster (sM.dev.partOf wM) 0x50000 .read = .hit 0x50000 tLeaf ∧ 0x50000 % 32 = 0 ∧ wM.rd.line 0x1400 = none ∧ wM.rd.op = none ∧
      mustWait sM.dev 0 wM [0x1400] = false ∧ wM.full .g = false) ∧ Issuing (sMof wMr) 0 wMr ∧ (sMof wMr).dev.crewOf wMr = some tCrew ∧
      wMr.pendingS [4, 5, 6, 8, 10, 11, 12] = false ∧ wMr.stop = none := by decide +kernel
theorem witness_MatrixWordsQueueOneOperation_readable :
    HasRead (sMof wMr).dev wMr 0x50000 32 0x50000 ∧ HasRead (sMof wMr).dev wMr 0x50040 32 0x50040 ∧ HasRead sMf.dev wMr 0x50000 32 0x50000 :=
  ⟨hasRead_of tLeaf (by decide +kernel), hasRead_of tLeaf (by decide +kernel), hasRead_of tLeaf (by decide +kernel)⟩

def wK : Warp := { tWarp with openOps := [5], lastBatch := 0xFFFFFFFF, sregs := [(1, 0), (2, 0xFFFFFFFF), (3, 0xFFFFFFFE), (4, 0x7FFFFFFF)] }
def sK : State := { scalarAt wK with dev := (scalarAt wK).dev.setCluster 0 { tCluster with mq := [5] } }
def wKb : Warp := { wK with openOps := [], batches := [⟨0xFFFFFFFF, [5], 0, none⟩] }
def wKf : Warp := { wK with batches := (List.range 16).map (fun i => ⟨i, [5], 0, none⟩) }
def wKe : Warp := { wK with openOps := [] }
theorem witness_BatchesDrainsAndPreemptionPoints_commit :
    Issuing sK 0 wK ∧ wK.pendingS [63] = false ∧ wK.batches.length < 16 ∧ 5 ∈ (wK.batches.head?.map (·.ops)).getD wK.openOps ∧
      5 ∈ (sK.dev.cluster wK.cluster).mq ∧ (Issuing (scalarAt wKf) 0 wKf ∧ 16 ≤ wKf.batches.length) ∧
      (Issuing (scalarAt wKe) 0 wKe ∧ wKe.batches = [] ∧ wKe.openOps = []) := by decide +kernel
theorem witness_BatchesDrainsAndPreemptionPoints_wait :
    wK.pendingS [1, 2, 3, 4] = false ∧ wK.stop = none ∧
      (let ahead := fun (m : Nat) => (m + 2 ^ 32 - wK.lastBatch) % 2 ^ 32
       1 ≤ ahead (bits (wK.s 1) 31 0) ∧ ahead (bits (wK.s 4) 31 0) ≤ 2 ^ 31 ∧ ¬ (1 ≤ ahead (bits (wK.s 2) 31 0)) ∧ ¬ (ahead (bits (wK.s 3) 31 0) ≤ 2 ^ 31 - 1)) ∧
      Issuing (scalarAt wKb) 0 wKb ∧ (wKb.batches.all fun x => x.num != 0xFFFFFFFE) = true ∧ (wKb.batches.any fun x => x.num == 0xFFFFFFFF) = true := by
  decide +kernel
def crewAsks : Crew := { tCrew with save := .pending }
def sMs : State := { sM with dev := sM.dev.setCrew 0 crewAsks }
theorem witness_BatchesDrainsAndPreemptionPoints_drain :
    Issuing sM 0 wM ∧ sM.dev.crewOf wM = some tCrew ∧ wM.pendingS [0, 8, 9] = false ∧ ((15 : BitVec 6).toNat < 16 ∧ (193 : BitVec 14).toNat < 2048 ∧ wM.s 0 = 0) ∧
      (tCrew.tiles.get? 15 = none ∧ tCrew.tiles.get? 0 ≠ none) ∧ (32 * wM.valloc < 193 + 64 ∧ 192 + 64 ≤ 32 * wM.valloc) ∧
      (sM.dev.cluster wM.cluster).mq.length < 64 ∧ 64 ≤ (sMf.dev.cluster wM.cluster).mq.length ∧ tileSuspended sM.dev 0 wM 0 = false := by decide +kernel
/-- An operation on tile 0 waits for a fault record. -/
def sMsus : State := { sM with dev := { sM.dev.setCluster 0 { tCluster with mq := [5] } with
  mops := [(5, ⟨0, 0, 0x10000, .mma 1 0x60000 0x70000 1 0, [0], 0, false, [], [], [], [], [3], 0, none⟩)] } }
theorem witness_BatchesDrainsAndPreemptionPoints_suspended : Issuing sMsus 0 wM ∧ sMsus.dev.crewOf wM = some tCrew ∧
    tileSuspended sMsus.dev 0 wM 0 = true ∧ (1536 ≤ (1536 : BitVec 14).toNat ∧ (2047 : BitVec 14).toNat < 2048) := by decide +kernel
theorem witness_BatchesDrainsAndPreemptionPoints_ppoint :
    bits (wM.s 8) 63 16 ≠ 0 ∧ bits (wM.s 9) 63 16 = 0 ∧ wM.stop = none ∧ tCrew.save = .none ∧
      (Issuing sMs 0 wM ∧ sMs.dev.crewOf wM = some crewAsks ∧ crewAsks.save ≠ .none ∧ wM.openOps = [] ∧ wM.batches = []) := by decide +kernel

/-! ### Nest words -/

/-- A record of points 0 to hi in one dimension, with its save area at 0x70000. -/
def childRec (hi : Nat) : Nat :=
  0x10000 + 2 ^ 64 * 0x10000 + 2 ^ 128 * 0x12000 + 2 ^ 320 * 0x70000 + 2 ^ 384 * 4096 + 2 ^ 448 * (8 * 4096) + hi * 2 ^ (8 * 84)
def wN : Warp :=
  { tWarp with sregs := [(1, 0x51000), (2, 0x51010), (3, 0x52000), (4, 0x53000), (5, 1), (6, 0), (7, 0x80000000), (8, 0xFFFFFFFF7FFFFFFF), (10, 0x7FFFFFFF), (11, 0xFFFFFFFF80000000)] }
def sN : State := { scalarAt wN with dev := { (scalarAt wN).dev with
  mem := memWriteN (memWriteN (memWriteN tTables 0x51000 256 (childRec 3)) 0x52000 256 (childRec 0)) 0x53000 256 (childRec 3 + 2 ^ 416 * 4) } }
/-- The issuing nest is at depth 10. -/
def deepNest : Nest := { tNest with depth := 10 }
def sNd : State := { sN with dev := { sN.dev with nests := [(0, deepNest)] } }
/-- It has read the lines of the three records. -/
def wNr : Warp := withLines sN.dev [0x1440, 0x1441, 0x1442, 0x1443, 0x1480, 0x1481, 0x1482, 0x1483, 0x14C0, 0x14C1, 0x14C2, 0x14C3] wN
def sNr : State := { sN with dev := { sN.dev with warps := [(0, wNr)] } }
def rec_ (a : Nat) : BitVec 2048 := BitVec.ofNat 2048 (wNr.rd.value a 256)

theorem witness_NestWordsLaunchReadAndGrow :
    Issuing sN 0 wN ∧ sN.dev.crewOf wN = some tCrew ∧ sN.dev.nests.get? tCrew.id.nest = some tNest ∧ wN.pendingS [9, 1, 2, 3, 4, 5, 6, 7, 8, 10, 11] = false ∧
      (wN.s 2).toNat % 256 ≠ 0 ∧ wN.stop = none ∧ (sNd.dev.crewOf wN = some tCrew ∧ sNd.dev.nests.get? 0 = some deepNest ∧ (wN.s 1).toNat % 256 = 0 ∧ 10 ≤ deepNest.depth) ∧
      tNest.depth < 10 := by decide +kernel
theorem witness_NestWordsLaunchReadAndGrow_status :
    fenceReady sN.dev 0 wN true .v = true ∧ ([(1, 0x51000), (3, 0x52000), (4, 0x53000)].all fun e =>
      decide ((wN.s e.1).toNat % 256 = 0) && aform (wN.s e.1) == .va e.2 &&
        xlate sN.dev wN.xs wN.cluster (sN.dev.partOf wN) e.2 .read == .hit e.2 tLeaf && decide (recField (rec_ e.2) 56 4 / 2 ^ 18 % 32 = 0)) = true ∧
      launchStatus sN.dev 0 0 (rec_ 0x51000) [] tLeaf.w = 0 ∧ launchStatus sN.dev 0 0 (rec_ 0x52000) [] tLeaf.w = 0 ∧
      launchStatus sN.dev 0 0 (rec_ 0x53000) [] tLeaf.w ≠ 0 := by decide +kernel
theorem witness_NestWordsLaunchReadAndGrow_slot :
    rakeFor sN.dev 0 = some 0 ∧ ((List.range 64).find? (fun i => (sN.dev.nests.get? (0 * 64 + i)).isNone)) = some 1 ∧ crewsOf sN.dev (0 * 64 + 1) = [] ∧
      fenceReady (scalarAt wSq).dev 0 wSq true .v = false := by decide +kernel
theorem witness_NestWordsLaunchReadAndGrow_asks :
    toRead wN 0x51000 256 = [0x1440, 0x1441, 0x1442, 0x1443] ∧ wN.rd.op = none ∧ mustWait sN.dev 0 wN [0x1440, 0x1441, 0x1442, 0x1443] = false ∧
      wN.full .g = false ∧ Issuing sNr 0 wNr ∧ sNr.dev.crewOf wNr = some tCrew ∧ sNr.dev.nests.get? tCrew.id.nest = some tNest ∧
      wNr.pendingS [9, 1, 3, 4] = false ∧ fenceReady sNr.dev 0 wNr true .v = true := by decide +kernel
theorem witness_NestWordsLaunchReadAndGrow_readable :
    HasRead sNr.dev wNr 0x51000 256 0x51000 ∧ HasRead sNr.dev wNr 0x52000 256 0x52000 ∧ HasRead sNr.dev wNr 0x53000 256 0x53000 :=
  ⟨hasRead_of tLeaf (by decide +kernel), hasRead_of tLeaf (by decide +kernel), hasRead_of tLeaf (by decide +kernel)⟩
theorem witness_NestWordsLaunchReadAndGrow_grow :
    (0 : BitVec 6).toNat < tNest.dims ∧ (tNest.dims ≤ (1 : BitVec 6).toNat ∧ (3 : BitVec 6).toNat < 4) ∧
      (2 ^ 31 - 1 < (wN.s 7).toInt ∧ (wN.s 8).toInt < -2 ^ 31) ∧ (-2 ^ 31 ≤ (wN.s 11).toInt ∧ (wN.s 11).toInt < tNest.mark 0) ∧
      (tNest.mark 0 ≤ (wN.s 10).toInt ∧ (wN.s 10).toInt ≤ 2 ^ 31 - 1) ∧ (sN.dev.crews.all fun e => e.2.id.nest != 0 || e.2.point.isSome) = true ∧
      (∀ p ∈ tNest.points, p.retires = false) := by decide +kernel

def crew2 : Crew := { tCrew with warps := [0, 1] }
def wOther : Warp := { tWarp with wslot := 1, wcrew := 1 }
def sPd : State := { scalarAt wN with dev := { (scalarAt wN).dev with crews := [(0, crew2)], warps := [(0, wN), (1, wOther)] } }
def wAck : Warp := { wN with acks := 1 }
def sPa : State := { sPd with dev := { sPd.dev with warps := sPd.dev.warps.set 0 wAck } }
theorem witness_PdoneParksAndFinishesThePoint :
    Issuing sPd 0 wN ∧ (wN.openOps = [] ∧ wN.batches = [] ∧ wN.batchErr = []) ∧ sPd.dev.crewOf wN = some crew2 ∧ crew2.point.isSome = true ∧
      (1 ∈ crew2.warps ∧ 1 ≠ 0 ∧ sPd.dev.warps.get? 1 = some wOther ∧ wOther.park ≠ .point) := by decide +kernel
theorem witness_PdoneParksAndFinishesThePoint_drained :
    (lanesDrained wN = true ∧ wN.outG = [] ∧ wN.outX = [] ∧ wN.outA = [] ∧ wN.outT = [] ∧ wN.acks = 0) ∧ fenceReady sPd.dev 0 wN true .v = true ∧
      (Issuing sPa 0 wAck ∧ sPa.dev.crewOf wAck = some crew2 ∧ wAck.acks ≠ 0) := by decide +kernel
theorem witness_PdoneParksAndFinishesThePoint_last :
    Issuing sN 0 wN ∧ fenceReady sN.dev 0 wN true .v = true ∧ sN.dev.crewOf wN = some tCrew ∧ tCrew.point.isSome = true ∧
      sN.dev.nests.get? tCrew.id.nest = some tNest ∧ (∀ j ∈ tCrew.warps, j = 0) := by decide +kernel

/-! ### Routines, key-value invalidation and collectives -/

def wSa : Warp := { tWarp with sregs := [(2, 63), (3, 0x50008), (4, 40), (5, 0x50004), (6, 64), (7, 0x50008), (8, 1), (9, 2), (10, 3), (11, 4)] }
def sSa : State := { scalarAt wSa with dev := (scalarAt wSa).dev.setCluster 0 { tCluster with l1 := [(0x1400, ⟨5, 1, 0, 0, 0⟩)] } }
/-- The same with an entry for routine 40 that asks for a release at gang scope, while a lane block is still to issue. -/
def wSr : Warp := { wSa with queue := [tBlock], sregs := wSa.sregs.set 2 40 }
def sSr : State := { scalarAt wSr with dev := (scalarAt wSr).dev.setCluster 0 { tCluster with rmap := [(40, mkMap 1 3 false 2 3 8 true)] } }
theorem witness_RoutinesAreInvokedAndInstalled_satom :
    Issuing sSa 0 wSa ∧ ((62 : BitVec 6).toNat < 63 ∧ (60 : BitVec 6).toNat < 61) ∧ wSa.pendingS [62, 63, 2, 3, 4, 5, 6, 7, 8, 9, 10, 11] = false ∧
      (wSa.s 5).toNat % 8 ≠ 0 ∧ wSa.stop = none ∧ ((wSa.s 3).toNat % 8 = 0 ∧ aform (wSa.s 3) = .va 0x50008 ∧ aform (wSa.s 7) = .va 0x50008) ∧
      xlate sSa.dev wSa.xs wSa.cluster (sSa.dev.partOf wSa) 0x50008 .write = .hit 0x50008 tLeaf := by decide +kernel
theorem witness_RoutinesAreInvokedAndInstalled_order :
    mustWait sSa.dev 0 wSa [0x1400] = false ∧ wSa.full .a = false ∧ (wSa.s 2).toNat ≤ 63 ∧ 63 < (wSa.s 6).toNat ∧
      satomReady sSa.dev 0 wSa (ordersOf sSa.dev wSa.cluster [63]).1 = true := by decide +kernel
theorem witness_RoutinesAreInvokedAndInstalled_release :
    Issuing sSr 0 wSr ∧ mustWait sSr.dev 0 wSr [0x1400] = false ∧ wSr.full .a = false ∧
      xlate sSr.dev wSr.xs wSr.cluster (sSr.dev.partOf wSr) 0x50008 .write = .hit 0x50008 tLeaf ∧
      satomReady sSr.dev 0 wSr (ordersOf sSr.dev wSr.cluster [(wSr.s 2).toNat]).1 = false := by decide +kernel

def wI : Warp := { tWarp with sregs := [(1, 32), (2, 0), (3, 0x50002), (4, 31), (5, 64), (6, 0x50000), (7, 0x50040), (8, 63)] }
def sIof (w : Warp) : State := { scalarAt w with dev := { (scalarAt w).dev with mem := memWriteN (memWriteN tTables 0x50000 4 (2 ^ 18 + 3 * 2 ^ 19)) 0x50040 4 (2 ^ 24) } }
def sI : State := sIof wI
/-- It has read the first lines of both images. -/
def wIr : Warp := withLines sI.dev [0x1400, 0x1401] wI
/-- Another install of the partition is under way. -/
def wOtherI : Warp := { wOther with install := some ⟨0, 9, 50, 0, [], true, 0, [1]⟩ }
def sIb : State := { sI with dev := { sI.dev with warps := [(0, wI), (1, wOtherI)], nextId := 1 } }
def ent : W64 := mkMap 1 3 false 0 0 8 true
/-- An install of this warp: waiting to begin, with units still to switch, or with all of them switched. -/
def wIn (begun : Bool) (todo : List Nat) : Warp := { wI with install := some ⟨1, 9, 32, ent, if begun then [] else [0], begun, 0, todo⟩ }
def sIn (begun : Bool) (todo : List Nat) : State := { sI with dev := { sI.dev with warps := [(0, wIn begun todo)] } }
/-- The same behind another install; with a slot of routine code granted. -/
def sIo : State := { sIb with dev := { sIb.dev with warps := [(0, wIn false []), (1, wOtherI)] } }
def sIs : State := { sIn false [] with dev := (sIn false []).dev.setPart 0 { tPart with pctl := tPart.pctl ||| 0x10000 } }
/-- A line of the partition is moving to another pan. -/
def sIm : State := { sIn true [0] with dev := (sIn true [0]).dev.setPan 0 { Pan.empty with lines := [(0x1400, { PanLine.fresh 0 0 0 with moving := true })] } }
/-- A run that looked up version 0 of entry 32 is still going. -/
def sIr : State := { sIn true [] with dev := { (sIn true []).dev.setPan 0 { Pan.empty with runs := [(0, ⟨1, 0, 0x1400, 40, 0⟩)] } with
  ops := [(1, { (MemOp.new 0 wI 0 .scalar .a (.satom 9) 0x10000 0) with subs := [(0, Sub.new 0x1400 (.routine 32 0 0 0 0 0))] })] } }
/-- An entry whose code is in slot 40. -/
def entRam : W64 := mkMap 1 40 false 0 0 8 true
theorem witness_RoutinesAreInvokedAndInstalled_rtinst :
    Issuing sI 0 wI ∧ wI.pendingS [9, 1, 2, 3, 4, 5, 6, 7, 8] = false ∧ wI.install = none ∧ ((wI.s 4).toNat < 32 ∧ 63 < (wI.s 5).toNat ∧ 32 ≤ (wI.s 1).toNat ∧ (wI.s 8).toNat ≤ 63) ∧
      (wI.s 3 ≠ 0 ∧ (wI.s 3).toNat % 4 ≠ 0 ∧ wI.stop = none) ∧ (Issuing sIb 0 wI ∧ installBusy sIb.dev 0 (sIb.dev.partOf wI) sIb.dev.nextId = true ∧ wI.s 2 = 0) ∧
      installBusy sI.dev 0 (sI.dev.partOf wI) sI.dev.nextId = false := by decide +kernel
theorem witness_RoutinesAreInvokedAndInstalled_image :
    (wI.s 6 ≠ 0 ∧ (wI.s 6).toNat % 4 = 0 ∧ aform (wI.s 6) = .va 0x50000 ∧ aform (wI.s 7) = .va 0x50040) ∧ rtHeaderOk (wIr.rd.value 0x50040 4) = false ∧
      rtHeaderOk (wIr.rd.value 0x50000 4) = true ∧ hdrRom (wIr.rd.value 0x50000 4) = true := by decide +kernel
theorem witness_RoutinesAreInvokedAndInstalled_switch :
    Issuing (sIn true [0]) 0 (wIn true [0]) ∧ nextUnit (sIn true [0]).dev.free [0] = some 0 ∧ nextUnit (sIn true [0]).dev.free [1024] = some 1024 ∧
      linesMoving (sIn true [0]).dev 0 = false ∧ (Issuing (sIn true []) 0 (wIn true []) ∧ oldRuns (sIn true []).dev 0 32 (mapVersion 0) = false) ∧
      (Issuing sIm 0 (wIn true [0]) ∧ linesMoving sIm.dev (sIm.dev.partOf wI) = true) ∧
      (Issuing sIr 0 (wIn true []) ∧ oldRuns sIr.dev 0 32 (mapVersion 0) = true) ∧ (mapV entRam = true ∧ 32 ≤ mapSlot entRam) := by decide +kernel
theorem witness_RoutinesAreInvokedAndInstalled_begin :
    (Issuing sIo 0 (wIn false []) ∧ installBusy sIo.dev 0 (sIo.dev.partOf wI) 1 = true) ∧ Issuing (sIn false []) 0 (wIn false []) ∧
      installBusy (sIn false []).dev 0 ((sIn false []).dev.partOf wI) 1 = false ∧ slotFree (sIn false []).dev ((sIn false []).dev.partOf wI) = none ∧
      Issuing sIs 0 (wIn false []) ∧ slotFree sIs.dev (sIs.dev.partOf wI) = some 32 := by decide +kernel
theorem witness_RoutinesAreInvokedAndInstalled_asks :
    xlate sI.dev wI.xs wI.cluster (sI.dev.partOf wI) 0x50000 .read = .hit 0x50000 tLeaf ∧ 0x50000 % 4 = 0 ∧ wI.rd.line 0x1400 = none ∧ wI.rd.op = none ∧
      mustWait sI.dev 0 wI [0x1400] = false ∧ wI.full .g = false ∧ Issuing (sIof wIr) 0 wIr ∧ wIr.pendingS [9, 1, 6, 7] = false ∧ wIr.install = none := by
  decide +kernel
theorem witness_RoutinesAreInvokedAndInstalled_readable :
    HasRead (sIof wIr).dev wIr 0x50000 4 0x50000 ∧ HasRead (sIof wIr).dev wIr 0x50040 4 0x50040 :=
  ⟨hasRead_of tLeaf (by decide +kernel), hasRead_of tLeaf (by decide +kernel)⟩

/-- A ring of two ranks over chunks of 64 bytes, its table at 0x52000, its communication warp the one given. -/
def clD (warp : Nat) : Nat := 0x52000 + 0x53000 * 2 ^ 64 + 64 * 2 ^ 128 + 2 * 2 ^ (8 * 22) + warp * 2 ^ (8 * 28) + 1 * 2 ^ (8 * 27)
def rtab : Nat := 0x3FF + 2 ^ 128 * (1 + 2 ^ 64 * 0x60000)
/-- Operands: s1 the descriptor of a ring whose communication warp is 0, s2 one with warp 1, s3 misaligned, s5 zeros, s6 the first with a table of
zeros, s7 an address that is not mapped. -/
def wCo : Warp := { tWarp with sregs := [(1, 0x50000), (2, 0x51000), (3, 0x50008), (4, 0x300000007), (5, 0x54000), (6, 0x55000), (7, 0x80000000)] }
def slice (off size : Nat) : Desc := BitVec.ofNat 512 (off * 2 ^ 128 + size * 2 ^ 160)
def crewCo : Crew := { tCrew with wins := [(0, Win.bound (slice 0 64)), (1, Win.bound (slice 64 128))] }
def memCo : Mem :=
  memWriteN (memWriteN (memWriteN (memWriteN tTables 0x50000 64 (clD 0)) 0x51000 64 (clD 1)) 0x52000 32 rtab) 0x55000 64 (clD 0 + 0x4000)
def sCo (c : Crew) (w : Warp) : State := { scalarAt w with dev := { (scalarAt w).dev with crews := [(0, c)], mem := memCo } }
def crewC2 : Crew := { crewCo with warps := [0, 1] }
/-- A second warp of the crew, recorded or not. -/
def sC2 (c : Crew) (w : Warp) (n : Nat) : State :=
  { sCo c w with dev := { (sCo c w).dev with warps := [(0, w), (1, { wOther with collIn := n })] } }
theorem witness_InvalidationsAndCollectivesStart :
    Issuing (sCo crewCo wCo) 0 wCo ∧ (sCo crewCo wCo).dev.crewOf wCo = some crewCo ∧ wCo.pendingS [1, 2, 3, 4, 5, 6, 7, 15] = false ∧
      (wCo.full .t = false ∧ wCo.acquires = []) ∧ ((15 : BitVec 6).toNat < 16 ∧ (wCo.s 3).toNat % 64 ≠ 0 ∧ (wCo.s 1).toNat % 64 = 0) ∧
      (crewCo.gate 15).n = 0 ∧ (crewCo.gate 1).n ≠ 0 ∧ wCo.stop = none := by decide +kernel
/-- Full counters make kvinv wait. -/
def wCa : Warp := { wCo with acquires := [(7, .g, false)] }
theorem witness_InvalidationsAndCollectivesStart_full : Issuing (sCo crewCo wCa) 0 wCa ∧ wCa.pendingS [1, 4] = false ∧ wCa.acquires ≠ [] := by decide +kernel
/-- A collective of the crew has started: its first step's sends are not complete, or they are. -/
def collOf (phase : Nat) : Coll :=
  ⟨0, tCrew.id, 0, 0, 0x10000, 1, BitVec.ofNat 512 (clD 0), [(0x3FF, 0), (1, 0x60000)], 0, phase, 0, false, [], 0, [], [], [], [], none⟩
def sC0 (w : Warp) (phase : Nat) : State := { sCo crewCo w with dev := { (sCo crewCo w).dev with colls := [collOf phase] } }
def wCin : Warp := { wCo with collIn := 1 }
theorem witness_InvalidationsAndCollectivesStart_in :
    Issuing (sC0 wCin 2) 0 wCin ∧ wCin.collIn = 1 ∧ crewCo.collArg = none ∧ (sC0 wCin 2).dev.crewOf wCin = some crewCo ∧
      collGoesOn (sC0 wCin 2).dev crewCo wCin = true ∧ collGoesOn (sC0 wCin 0).dev crewCo wCin = false ∧ Issuing (sC0 wCin 0) 0 wCin ∧
      (sC0 wCin 0).dev.crewOf wCin = some crewCo := by decide +kernel
/-- The word waits: for the end of a collective, for a warp at the start of one, for a lane block; recorded, for the others. -/
def wCq : Warp := { wCo with queue := [tBlock] }
def wCrec : Warp := { wCo with collIn := 2 }
def crewArg (a : W64) (g : Nat) : Crew := { crewC2 with collArg := some (a, g) }
theorem witness_InvalidationsAndCollectivesStart_wait :
    (Issuing (sC0 wCo 0) 0 wCo ∧ (sC0 wCo 0).dev.crewOf wCo = some crewCo ∧ inCollective (sC0 wCo 0).dev crewCo = true) ∧
      (Issuing (sC2 crewC2 wCo 1) 0 wCo ∧ (sC2 crewC2 wCo 1).dev.crewOf wCo = some crewC2 ∧
        crewC2.warps.any (fun j => ((sC2 crewC2 wCo 1).dev.warps.get? j).any (fun u => u.collIn != 0)) = true) ∧
      (Issuing (sCo crewCo wCq) 0 wCq ∧ fenceReady (sCo crewCo wCq).dev 0 wCq true .c = false ∧ wCq.collIn = 0) ∧
      (Issuing (sC2 (crewArg 0x50000 1) wCrec 0) 0 wCrec ∧ (sC2 (crewArg 0x50000 1) wCrec 0).dev.crewOf wCrec = some (crewArg 0x50000 1) ∧
        (crewArg 0x50000 1).collArg ≠ none ∧ wCrec.collIn = 2) := by decide +kernel
/-- The first warp records: one that is not the communication warp, one whose descriptor has no translation, the communication warp. -/
def wC1 : Warp := { wCo with wcrew := 1 }
theorem witness_InvalidationsAndCollectivesStart_record :
    crewC2.collArg = none ∧ wCo.collIn = 0 ∧ (sC2 crewC2 wCo 0).dev.crewOf wCo = some crewC2 ∧ inCollective (sC2 crewC2 wCo 0).dev crewC2 = false ∧
      crewC2.warps.all (fun j => ((sC2 crewC2 wCo 0).dev.warps.get? j).all (fun u => u.collIn == 0)) = true ∧
      fenceReady (sC2 crewC2 wCo 0).dev 0 wCo true .c = true ∧ commWarp (sC2 crewC2 wCo 0).dev wCo (wCo.s 2) = some 1 ∧
      commWarp (sC2 crewC2 wCo 0).dev wCo (wCo.s 1) = some wCo.wcrew ∧ 1 ∈ crewC2.warps ∧ ((sC2 crewC2 wCo 0).dev.warps.get? 1).isSome = true ∧
      (wC1.wcrew ≠ 0 ∧ commWarp (sC2 crewC2 wC1 0).dev wC1 (wC1.s 7) = none ∧ Issuing (sC2 crewC2 wC1 0) 0 wC1 ∧
        fenceReady (sC2 crewC2 wC1 0).dev 0 wC1 true .c = true) := by decide +kernel
theorem witness_InvalidationsAndCollectivesStart_second :
    (sC2 (crewArg 0x50000 1) wCo 2).dev.crewOf wCo = some (crewArg 0x50000 1) ∧ (crewArg 0x50000 1).collArg = some (0x50000, 1) ∧
      (0x50000 : W64) ≠ wCo.s 2 ∧ (0x50000 : W64) = wCo.s 1 ∧ (1 : Nat) ≠ (0 : BitVec 6).toNat ∧ ((crewArg 0x50000 1).gate 0).n ≠ 0 ∧
      fenceReady (sC2 (crewArg 0x50000 1) wCo 2).dev 0 wCo true .c = true ∧ (crewArg 0x51000 1).collArg = some (wCo.s 2, 1) ∧
      commWarp (sC2 (crewArg 0x51000 1) wCo 2).dev wCo (wCo.s 2) = some 1 ∧ (1 : Nat) ≠ wCo.wcrew := by decide +kernel
/-- The communication warp, with the other recorded, before and after it has read the lines of the descriptors and tables. -/
def wCr : Warp := withLines (sCo crewCo wCin).dev [0x1400, 0x1480, 0x1500, 0x1540, 0x1580] wCin
def crewGo (a : W64) : Crew :=
  { crewArg a 1 with wins := [(0, { Win.bound (slice 0 64) with state := .present }), (1, { Win.bound (slice 64 128) with state := .present })] }
theorem witness_InvalidationsAndCollectivesStart_go :
    Issuing (sC2 (crewGo 0x50000) wCin 2) 0 wCin ∧ (sC2 (crewGo 0x50000) wCin 2).dev.crewOf wCin = some (crewGo 0x50000) ∧
      (crewGo 0x50000).collArg = some (wCin.s 1, 1) ∧ commWarp (sC2 (crewGo 0x50000) wCin 2).dev wCin (wCin.s 1) = some wCin.wcrew ∧
      (crewGo 0x50000).warps.all (fun j => j == 0 || ((sC2 (crewGo 0x50000) wCin 2).dev.warps.get? j).all (fun u => u.collIn != 0)) = true ∧
      aform (wCin.s 1) = .va 0x50000 ∧ xlate (sC2 (crewGo 0x50000) wCin 2).dev wCin.xs wCin.cluster 0 0x50000 .read = .hit 0x50000 tLeaf ∧
      toRead wCin 0x50000 64 = [0x1400] ∧ wCin.rd.op = none ∧ mustWait (sC2 (crewGo 0x50000) wCin 2).dev 0 wCin [0x1400] = false ∧
      fenceReady (sC2 (crewGo 0x50000) wCo 2).dev 0 wCo true .c = true := by decide +kernel
theorem witness_InvalidationsAndCollectivesStart_checks :
    (let desc : Desc := BitVec.ofNat 512 (wCr.rd.value 0x50000 64)
     wCr.wcrew = clWarp desc ∧ clDescOk desc (crewGo 0x50000) = true ∧ clSrck desc = 0 ∧ aform (BitVec.ofNat 64 (clRtab desc)) = .va 0x52000 ∧
      0x52000 % 65536 + 16 * clN desc ≤ 65536 ∧ 16 * clN desc = 32 ∧ clRanksOk desc (wCr.rd.value 0x52000 32) = true ∧
      (∀ n ∈ collWins desc, ((crewGo 0x50000).win n).state = .present)) ∧
    (let desc : Desc := BitVec.ofNat 512 (wCr.rd.value 0x54000 64)
     wCr.wcrew = clWarp desc ∧ clDescOk desc (crewGo 0x54000) = false) ∧
    (let desc : Desc := BitVec.ofNat 512 (wCr.rd.value 0x55000 64)
     wCr.wcrew = clWarp desc ∧ clDescOk desc (crewGo 0x55000) = true ∧ clSrck desc = 0 ∧ aform (BitVec.ofNat 64 (clRtab desc)) = .va 0x56000 ∧
      16 * clN desc = 32 ∧ clRanksOk desc (wCr.rd.value 0x56000 32) = false) ∧ wCr.stop = none := by decide +kernel
theorem witness_InvalidationsAndCollectivesStart_readable :
    HasRead (sC2 (crewGo 0x50000) wCr 2).dev wCr 0x50000 64 0x50000 ∧ HasRead (sC2 (crewGo 0x50000) wCr 2).dev wCr 0x52000 32 0x52000 ∧
      HasRead (sC2 (crewGo 0x54000) wCr 2).dev wCr 0x54000 64 0x54000 ∧ HasRead (sC2 (crewGo 0x55000) wCr 2).dev wCr 0x55000 64 0x55000 ∧
      HasRead (sC2 (crewGo 0x55000) wCr 2).dev wCr 0x56000 32 0x56000 :=
  ⟨hasRead_of tLeaf (by decide +kernel), hasRead_of tLeaf (by decide +kernel), hasRead_of tLeaf (by decide +kernel), hasRead_of tLeaf (by decide +kernel),
    hasRead_of tLeaf (by decide +kernel)⟩
end Sys2Proof.Tests
end

