-- ==== Sys2Proof/Tests/WitnessLane.lean ====
section
/-!
SUPPORT. Witnesses for the statements about lane words: words that are legal, in states where their conditions hold, at the types at the
ends of each range.
-/
namespace Sys2Proof.Tests
open Sys2Proof.Machine
set_option Elab.async false

/-- A lane word with no guard. -/
def fw (ty dst s0 s1 s2 s3 : Nat) (mdf : Nat := 0) : LaneWord :=
  { laneFields 0 with ty := BitVec.ofNat 4 ty, dst := BitVec.ofNat 11 dst, s0 := BitVec.ofNat 11 s0, s1 := BitVec.ofNat 11 s1, s2 := BitVec.ofNat 11 s2, s3 := BitVec.ofNat 11 s3, mdf := BitVec.ofNat 3 mdf, gA := 0, gB := 31 }
/-- A register with f i in lane i, for the first three lanes. -/
def reg3 (f : Nat → Nat) : LaneReg := BitVec.ofNat 2048 ((List.range 3).foldl (fun a i => a + (f i % 2 ^ 32) * 2 ^ (32 * i)) 0)
/-- The block of two words with three lanes. -/
def bV : Block := { tBlock with lanes := 3 }
def wV : Warp := { tWarp with vregs := [(2, reg3 (fun i => i + 7)), (3, reg3 (fun i => 100 * i))], preds := [(0, 0xF7), (1, 0xAA), (2, 0xF0)], queue := [bV] }
def laneS (w : Warp) : State := { scalarAt w with dev := { (scalarAt w).dev with actor := .lane 0 } }
def sV : State := laneS wV
def legal (r : LaneRow) (f : LaneWord) (w : Warp) : Bool := (laneCheck r f bV.valloc true false).isNone && !(w.ownAside.pendingV (r.regs f))
theorem laneLegal_of {r : LaneRow} {f : LaneWord} {w : Warp} (h : legal r f w = true) : LaneLegal r f w bV := by
  simpa [legal, LaneLegal] using h

theorem witness_LaneArithmeticWordsCompute : LaneIssuing sV 0 wV bV ∧
    ([0, 7].all fun ty => decide (ty < 8) && legal (row2 tyNum ty) (fw ty 12 0 2 2047 2047) wV && legal (row3 tyInt ty) (fw ty 12 0 2 4 2047) wV &&
      legal (row1 tyMove ty) (fw ty 12 0 2047 2047 2047) wV) = true ∧
    ([0, 3].all fun ty => legal (row1 (fun t => decide (t < 4) || tyF t) ty) (fw ty 12 0 2047 2047 2047) wV) = true ∧
    ([6, 7].all fun ty => legal (row2 tyBits ty) (fw ty 12 0 2 2047 2047) wV && legal (row1 tyBits ty) (fw ty 12 0 2047 2047 2047) wV) = true ∧
    ([2, 7].all fun ty => legal (row2 (fun t => t == 2 || t == 3 || t == 6 || t == 7) ty) (fw ty 12 0 2 2047 2047) wV) = true := by decide +kernel
theorem witness_LaneArithmeticWordsCompute_float : ([8, 10].all fun ty => tyF ty && legal (row2 tyNum ty) (fw ty 12 0 2 2047 2047) wV &&
    legal (row3 tyF ty) (fw ty 12 0 2 4 2047) wV && legal (row1 (fun t => decide (t < 4) || tyF t) ty) (fw ty 12 0 2047 2047 2047) wV &&
    legal ⟨tyF, fun _ m => m < 4, false, .dst ty, .src ty, .unused, .unused, .unused⟩ (fw ty 12 0 2047 2047 2047 3) wV) = true := by decide +kernel

theorem witness_LaneComparisonsAndPredicates : LaneIssuing sV 0 wV bV ∧
    ([(0, 0), (7, 5), (8, 0), (10, 7)].all fun e => decide (e.1 < 8 ∧ e.2 < 6 ∨ tyF e.1 = true) &&
      legal ⟨tyNum, fun t m => m < 6 || tyF t, false, .pdst, .src e.1, .src e.1, .unused, .unused⟩ (fw e.1 1548 0 2 2047 2047 e.2) wV) = true ∧
    ([0, 12].all fun ty => legal ⟨tyMove, mod0, false, .dst ty, .src ty, .src ty, .psrc, .unused⟩ (fw ty 12 0 2 1546 2047) wV) = true ∧
    legal ⟨fun t => t == 15, mod0, false, .pdst, .psrc, .psrc, .unused, .unused⟩ (fw 15 1549 1545 1546 2047 2047) wV = true ∧
    legal ⟨fun t => t == 15, mod0, false, .pdst, .psrc, .unused, .unused, .unused⟩ (fw 15 1549 1545 2047 2047 2047) wV = true := by decide +kernel

/-- Another word holds the special-function lanes of the clock. -/
def sVb : State := { sV with dev := sV.dev.setCluster 0 { tCluster with sfu := 4 * 1001 } }
theorem witness_SpecialFunctionsAndConversions :
    ([8, 10].all fun ty => legal (row1 tyF ty) (fw ty 12 0 2047 2047 2047) wV) = true ∧ sfuGranted sV.dev wV.cluster wV.pipe 0 = true ∧
      (LaneIssuing sVb 0 wV bV ∧ sfuGranted sVb.dev wV.cluster wV.pipe 0 = false ∧ wV.lpark = .run ∧ (row1 tyF 8).latches (fw 8 12 0 2047 2047 2047) = []) := by
  decide +kernel
theorem witness_SpecialFunctionsAndConversions_cvt :
    ([(0, 10), (14, 8), (8, 0), (10, 14)].all fun e => let f := fw e.1 12 0 2047 2047 e.2
      let r : LaneRow := ⟨fun t => t ≤ 14, mod0, false, .dst e.1, .src e.2, .unused, .unused, .unused⟩
      (laneCheck r f bV.valloc (decide (f.s3.toNat < 16) && cvtPair e.1 e.2) true).isNone && !(wV.ownAside.pendingV (r.regs f))) = true := by decide +kernel
/-- 127 and -128 fit a signed byte, 128 and -129 do not. -/
theorem witness_SpecialFunctionsAndConversions_range :
    (let y := fun (neg : Bool) (m : Nat) => if neg then -((roundInt (control 0 0).1 neg m 0).1 : Int) else ((roundInt (control 0 0).1 neg m 0).1 : Int)
     (-2 ^ (tyW 0 - 1) ≤ y true 128 ∧ y false 127 ≤ 2 ^ (tyW 0 - 1) - 1) ∧ (y true 129 < -2 ^ (tyW 0 - 1) ∧ 2 ^ (tyW 0 - 1) - 1 < y false 128)) := by
  decide +kernel

theorem witness_CrossLaneWordsCombineLanes : bV.lanes ≤ 64 ∧
    ([(0, 0), (12, 4)].all fun e => legal ⟨tyMove, fun _ m => m < 5, false, .dst e.1, .src e.1, .src 6, .src 6, .pdst⟩ (fw e.1 12 0 20 1620 1549 e.2) wV) = true ∧
    ([(1549, 0), (1549, 1), (12, 2)].all fun e => legal ⟨fun t => t == 15, fun _ m => m < 3, false, if e.2 < 2 then .pdst else .dst 7, .psrc, .unused, .unused, .unused⟩
      (fw 15 e.1 1545 2047 2047 2047 e.2) wV) = true ∧
    ([(0, 2), (7, 5)].all fun e => legal ⟨tyNum, fun t m => m < 3 || (m < 6 && tyBits t), false, .dst e.1, .src e.1, .src 6, .unused, .unused⟩
      (fw e.1 12 0 1620 2047 2047 e.2) wV) = true := by decide +kernel

/-! ### Memory words -/

theorem mustWait_idle {d : Dev} {k : Nat} {w : Warp} (h : w.acquires = [] ∧ d.ops = []) : ∀ l, mustWait d k w l = false := by
  intro l; simp [mustWait, h.1, h.2]
theorem witness_mustWait : wV.acquires = [] ∧ sV.dev.ops = [] := by decide +kernel

/-- Addresses f i in v0 and v1. -/
def adr (f : Nat → Nat) : Warp := { wV with vregs := [(0, reg3 f), (1, reg3 (fun i => f i / 2 ^ 32)), (2, reg3 (fun i => i + 7)), (4, reg3 (fun _ => 3)), (5, reg3 (fun i => 8 * i))] }
def at_ (w : Warp) (i : Nat) : W64 := BitVec.ofNat 64 ((lcx (laneS w).dev w bV).read 0 7 i)
def ldRow (ty : Nat) : LaneRow := ⟨tyMem, mod0, true, .dst ty, .src 7, .unused, .unused, .unused⟩
def stRow (ty : Nat) : LaneRow := ⟨tyMem, mod0, true, .unused, .src 7, .src ty, .unused, .unused⟩
def pfRow : LaneRow := ⟨fun t => t == 15, mod0, true, .unused, .src 7, .unused, .unused, .unused⟩
/-- Three lanes at 0x5FFE0, 0x5FFE8 and 0x5FFF0. -/
def wMem : Warp := adr (fun i => 0x5FFE0 + 8 * i)
def hits (w : Warp) (need : Need) (ty i : Nat) : Bool :=
  match aform (elemByte ty (at_ w i)) with
  | .va va => xlate (laneS w).dev w.xl w.cluster ((laneS w).dev.partOf w) va need == .hit va tLeaf
  | _ => false
theorem witness_LaneLoadsAndStoresIssue : LaneIssuing (laneS wMem) 0 wMem bV ∧ wMem.lpark = .run ∧ (wMem.acquires = [] ∧ (laneS wMem).dev.ops = []) ∧ wMem.full .g = false ∧
    ([0, 7, 14].all fun ty => legal (ldRow ty) (fw ty 12 0 2047 2047 2047) wMem && legal (stRow ty) (fw ty 2047 0 2 2047 2047) wMem) = true ∧
    lanesOn (execMask wMem bV (fw 7 12 0 2047 2047 2047)) = [0, 1, 2] ∧
    ([0, 1, 2].all fun i => [0, 7].all fun ty => decide ((at_ wMem i).toNat % elemSize ty = 0) && hits wMem .read ty i && hits wMem .write ty i) = true := by
  decide +kernel
/-- Lane 0 can be fetched, lane 1 has a non-canonical address, and the page of lane 2 is not mapped. -/
def wPf : Warp := { adr (fun i => if i = 0 then 0x50000 else if i = 1 then 0x1000000000000 else 0x80000000) with xl := [(0x8000, .fault .notMapped)] }
theorem witness_LaneLoadsAndStoresIssue_pf : LaneIssuing (laneS wPf) 0 wPf bV ∧ legal pfRow (fw 15 2047 0 2047 2047 2047) wPf = true ∧
    hits wPf .read 0 0 = true ∧ aform (at_ wPf 1) = .bad ∧ aform (at_ wPf 2) = .va 0x80000000 ∧
    xlate (laneS wPf).dev wPf.xl wPf.cluster ((laneS wPf).dev.partOf wPf) 0x80000000 .read = .fault .notMapped ∧ wPf.full .g = false ∧ wPf.lpark = .run := by
  decide +kernel

/-- Lanes 1 and 2 misaligned; lane 1 non-canonical; every lane in an unmapped page. -/
def wMis : Warp := adr (fun i => 0x50000 + i)
def wBad : Warp := adr (fun i => if i = 1 then 0x1000000000000 else 0x50000)
def wUn : Warp := { adr (fun i => 0x80000000 + 8 * i) with xl := [(0x8000, .fault .notMapped)] }
theorem witness_LaneAccessesTrapOrPark : ([wMis, wBad, wUn].all fun w => decide (LaneIssuing (laneS w) 0 w bV ∧ w.lpark = .run ∧ w.stop = none) &&
    legal (ldRow 7) (fw 7 12 0 2047 2047 2047) w && legal (stRow 7) (fw 7 2047 0 2 2047 2047) w && ((ldRow 7).latches (fw 7 12 0 2047 2047 2047)).isEmpty &&
    ((stRow 7).latches (fw 7 2047 0 2 2047 2047)).isEmpty) = true ∧
    ([0, 1, 2].find? fun i => (at_ wMis i).toNat % elemSize 7 != 0) = some 1 ∧
    ([0, 1, 2].all fun i => decide ((at_ wBad i).toNat % elemSize 7 = 0 ∧ (at_ wUn i).toNat % elemSize 7 = 0)) = true ∧
    (aform (elemByte 7 (at_ wBad 0)) = .va 0x50000 ∧ aform (elemByte 7 (at_ wBad 1)) = .bad ∧ aform (elemByte 7 (at_ wBad 2)) = .va 0x50000) := by decide +kernel
theorem witness_LaneAccessesTrapOrPark_page :
    ([0, 1, 2].all fun i => match aform (elemByte 7 (at_ wUn i)) with
      | .va va => decide (va / 65536 = 0x8000) && xlate (laneS wUn).dev wUn.xl wUn.cluster ((laneS wUn).dev.partOf wUn) va .write == .fault .notMapped &&
        xlate (laneS wUn).dev wUn.xl wUn.cluster ((laneS wUn).dev.partOf wUn) va .read == .fault .notMapped
      | _ => false) = true ∧ wUn.full .g = false ∧ (wUn.acquires = [] ∧ (laneS wUn).dev.ops = []) := by decide +kernel

theorem witness_AtomicsAndKvWordsIssue :
    ([(2, 0, 6), (7, 1, 2047)].all fun e => legal (atomRow e.1 e.2.1) (fw e.1 20 4 0 8 e.2.2 e.2.1) wMem) = true ∧
      lanesOn (execMask wMem bV (fw 7 20 4 0 8 2047 1)) ≠ [] ∧ wMem.full .a = false ∧
      ([0, 1, 2].all fun i => decide ((lcx (laneS wMem).dev wMem bV).read 4 6 i ≤ 63)) = true ∧
      ordersOf (laneS wMem).dev wMem.cluster [3, 3, 3] = (none, none) ∧ releaseReady (laneS wMem).dev 0 wMem none = true ∧ ([0, 1, 2].all fun i => hits wMem .write 7 i) = true := by decide +kernel

/-- v0 to v1: sequence i; v6 to v7: the header at 0x50000, which the cluster's header cache holds: 8 blocks of one position, 8 sequences, at 0x60000. -/
def wKv : Warp := { wV with vregs := [(0, reg3 (fun i => i)), (4, reg3 (fun _ => 7)), (6, reg3 (fun _ => 0x50000))] }
def kvHeader : BitVec 256 := BitVec.ofNat 256 (0x60000 + 8 * 2 ^ 64 + 8 * 2 ^ 96)
def sKv : State := { laneS wKv with dev := (laneS wKv).dev.setCluster 0 { tCluster with kvh := [⟨0, 0x50000, kvHeader⟩] } }
theorem witness_AtomicsAndKvWordsIssue_kvx : LaneIssuing sKv 0 wKv bV ∧ wKv.lpark = .run ∧ (wKv.acquires = [] ∧ sKv.dev.ops = []) ∧ wKv.full .t = false ∧
    legal ⟨fun t => t == 7, mod0, true, .dst 7, .src 7, .src 7, .src 7, .pdst⟩ (fw 7 12 0 4 6 1547) wKv = true ∧
    lanesOn (execMask wKv bV (fw 7 12 0 4 6 1547)) = [0, 1, 2] ∧
    ([0, 1, 2].all fun i => let x := lcx sKv.dev wKv bV
      aform (BitVec.ofNat 64 (x.read 6 7 i)) == .va 0x50000 && kvLane sKv.dev wKv 0x50000 (x.read 0 7 i % 2 ^ 32) (x.read 4 7 i % 2 ^ 32) ==
        .entry 0x50000 i 7 0 (some (0x60000 + 8 * (8 * i + 7))) 0 kvHeader) = true := by decide +kernel
/-- With an empty header cache the header is to be read first. -/
theorem witness_AtomicsAndKvWordsIssue_header : LaneIssuing (laneS wKv) 0 wKv bV ∧ wKv.rl.op = none ∧
    ([0, 1, 2].all fun i => let x := lcx (laneS wKv).dev wKv bV
      kvLane (laneS wKv).dev wKv 0x50000 (x.read 0 7 i % 2 ^ 32) (x.read 4 7 i % 2 ^ 32) == .header 0x50000 0x50000) = true := by decide +kernel

def wSc : Warp := { wV with vregs := [(5, reg3 (fun i => 8 * i)), (2, reg3 (fun i => i + 7))] }
def memS (w : Warp) (c : Crew) : State := { laneS w with dev := { (laneS w).dev with crews := [(0, c)] } }
def sRow (ty : Nat) : LaneRow := ⟨tyMem, mod0, true, .dst ty, .src 6, .unused, .unused, .unused⟩
def stsRow (ty : Nat) : LaneRow := ⟨tyMem, mod0, true, .unused, .src 6, .src ty, .unused, .unused⟩
def tapRow : LaneRow := ⟨fun t => t == 15, mod0, true, .unused, .src 6, .unused, .unused, .unused⟩
/-- Lanes 1 and 2 lie past the end of the scratch: 8,192 bytes. -/
def wOut : Warp := { wV with vregs := [(5, reg3 (fun i => 8184 + 8 * i))] }
/-- A window over bytes 0 to 63, in a state. -/
def crewAt (st : WState) : Crew := { tCrew with wins := [(3, { win0 with state := st })] }
theorem witness_ScratchWordsAccessTheCrew : LaneIssuing (memS wSc (crewAt .present)) 0 wSc bV ∧ (memS wSc (crewAt .present)).dev.crewOf wSc = some (crewAt .present) ∧
    wSc.acquires = [] ∧ ([0, 7, 14].all fun ty => legal (sRow ty) (fw ty 12 5 2047 2047 2047) wSc) = true ∧
    ([0, 7].all fun ty => tyW ty != 4 && legal (stsRow ty) (fw ty 2047 5 2 2047 2047) wSc) = true ∧
    ([0, 1, 2].all fun i => let e := (lcx (memS wSc (crewAt .present)).dev wSc bV).read 5 6 i
      decide (e % elemSize 7 = 0 ∧ e + elemSize 7 ≤ tCrew.ssize ∧ (crewAt .present).windowAt e = some 3 ∧ ((crewAt .present).win 3).state = .present ∧
        ((crewAt .present).win 3).holds = 0 ∧ e / 16 ∉ ((memS wSc (crewAt .present)).dev.cluster 0).spoison)) = true := by decide +kernel
theorem witness_ScratchWordsAccessTheCrew_tap : legal tapRow (fw 15 2047 5 2047 2047 2047) wSc = true ∧
    ([0, 1, 2].all fun i => let e := (lcx (memS wSc (crewAt .absent)).dev wSc bV).read 5 6 i
      decide (e + 1 ≤ tCrew.ssize ∧ (crewAt .absent).windowAt e = some 3 ∧ (crewAt .present).windowAt e = some 3)) = true ∧
    (((crewAt .absent).win 3).state = .absent ∧ ((crewAt .absent).win 3).gerr = false ∧ dGen ((crewAt .absent).win 3).desc = false) ∧
    (((crewAt .present).win 3).state ≠ .absent ∧ ((crewAt .present).win 3).asking ≠ 1) ∧ (memS wSc (crewAt .absent)).dev.crewOf wSc = some (crewAt .absent) ∧
    lanesOn (execMask wSc bV (fw 15 2047 5 2047 2047 2047)) = [0, 1, 2] := by decide +kernel
theorem witness_ScratchWordsAccessTheCrew_outside : LaneIssuing (memS wOut tCrew) 0 wOut bV ∧ legal (sRow 7) (fw 7 12 5 2047 2047 2047) wOut = true ∧ wOut.stop = none ∧
    (sRow 7).latches (fw 7 12 5 2047 2047 2047) = [] ∧ ([0, 1, 2].all fun i => decide ((lcx (memS wOut tCrew).dev wOut bV).read 5 6 i % elemSize 7 = 0)) = true ∧
    tCrew.ssize < (lcx (memS wOut tCrew).dev wOut bV).read 5 6 1 + elemSize 7 := by decide +kernel

/-- v6 names crew 0 in every lane; wRf crew 1, outside the gang of one. -/
def wR : Warp := { wV with vregs := [(2, reg3 (fun i => i + 7)), (5, reg3 (fun i => 8 * i))] }
def wRf : Warp := { wR with vregs := wR.vregs ++ [(6, reg3 (fun i => if i = 1 then 1 else 0))] }
def ldrRow (ty : Nat) : LaneRow := ⟨tyMove, mod0, true, .dst ty, .src 6, .src 6, .unused, .unused⟩
def strRow (ty : Nat) : LaneRow := ⟨tyMove, mod0, true, .unused, .src 6, .src 6, .src ty, .unused⟩
theorem witness_RemoteScratchIssuesAndIsPerformed : ([wR, wRf].all fun w => decide (LaneIssuing (laneS w) 0 w bV ∧ (laneS w).dev.crewOf w = some tCrew ∧ w.lpark = .run ∧
      w.full .x = false ∧ w.stop = none ∧ w.acquires = [] ∧ (laneS w).dev.ops = [])) = true ∧
    ([0, 7, 12].all fun ty => legal (ldrRow ty) (fw ty 12 6 5 2047 2047) wR && legal (strRow ty) (fw ty 2047 6 5 2 2047) wR) = true ∧
    ([0, 1, 2].all fun i => let x := lcx (laneS wR).dev wR bV
      decide (x.read 5 6 i % elemSize 7 = 0 ∧ x.read 6 6 i < tNest.gangSize ∧ x.read 5 6 i + elemSize 7 ≤ tCrew.ssize)) = true ∧
    tNest.gangSize ≤ (lcx (laneS wRf).dev wRf bV).read 6 6 1 ∧ (ldrRow 7).latches (fw 7 12 6 5 2047 2047) = [] ∧
    legal ⟨fun t => t == 15, mod0, false, .unused, .unused, .unused, .unused, .unused⟩ (fw 15 2047 2047 2047 2047 2047) wR = true := by decide +kernel
def remOp (k : OpKind) (r : Remote) : MemOp := { (MemOp.new 0 wR 0 .lane .x k 0x12000 0x12000) with remotes := [(0, r)] }
def wRp : Warp := { wR with outX := [⟨1, false⟩], pendV := [(1, 12)] }
def sRem (k : OpKind) (r : Remote) (c : Crew) : State := devAt { (memS wRp c).dev with ops := [(1, remOp k r)], nextId := 2 }
def remIn : Remote := ⟨0, 8, 4, 0x55667788, false, false, false⟩
def remDone : Remote := { remIn with done := true }
theorem witness_RemoteScratchIssuesAndIsPerformed_access :
    ([OpKind.str, .ldr 2 12 0 false].all fun k => decide ((sRem k remIn tCrew).dev.ops.get? 1 = some (remOp k remIn) ∧ (remOp k remIn).remotes.get? 0 = some remIn ∧
      (sRem k remIn tCrew).dev.warps.get? 0 = some wRp ∧ (sRem k remIn tCrew).dev.crewOf wRp = some tCrew ∧ remIn.done = false ∧
      remoteBefore (sRem k remIn tCrew).dev 0 1 0 remIn.crew = false) && decide (gangCrew (sRem k remIn tCrew).dev tCrew 0 = some (tCrew, false))) = true ∧
    remoteHeld tCrew remIn.off = false ∧ remoteHeld (crewAt .filling) remIn.off = true ∧
    gangCrew (sRem .str remIn (crewAt .filling)).dev (crewAt .filling) 0 = some (crewAt .filling, false) := by decide +kernel
theorem witness_RemoteScratchIssuesAndIsPerformed_return :
    ([OpKind.str, .ldr 0 12 0 false, .ldr 12 12 0 false].all fun k => let o := remOp k remDone
      decide ((sRem k remDone tCrew).dev.ops.get? 1 = some o ∧ remDone.done = true ∧ remDone.back = false ∧ remDone.poison = false ∧ o.remotes = [(0, remDone)] ∧ o.subs = []) &&
      decide (o.left = 0 ∧ o.waits = [] ∧ o.bad = [] ∧ o.path = .x ∧ wRp.acquires = [])) = true ∧ tyW 0 ≠ 64 ∧ tyW 12 ≠ 64 := by decide +kernel

/-! ### Returns -/

def wRet : Warp := { wV with outG := [⟨1, false⟩], pendV := [(1, 12), (1, 13)], acks := 1 }
def retU (act : Act) (st : SubSt) (line : Nat) (p : BitVec 4) : Sub := { Sub.new line act with st := st, data := 0x1122334455, poison := p, lanes := 5 }
def retO (k : OpKind) (u : Sub) : MemOp := { (MemOp.new 0 wRet 0 .lane .g k 0x12000 0x12000) with addr := [(0, 0x50000), (2, 0x50038)], subs := [(5, u)] }
def sRet (k : OpKind) (u : Sub) : State := devAt { (laneS wRet).dev with ops := [(1, retO k u)], nextId := 2 }
def plain (o : MemOp) : Bool := decide (o.left = 0 ∧ o.remotes = [] ∧ o.waits = [] ∧ o.bad = [] ∧ o.path = .g)
theorem witness_LaneRepliesAreTaken :
    ([(OpKind.load 0 12 0 false, 0#4), (.load 14 12 0 false, 0), (.load 7 12 0 false, 8), (.pf, 1)].all fun e => let u := retU .load .performed 0x1400 e.2
      plain (retO e.1 u) && decide ((sRet e.1 u).dev.ops.get? 1 = some (retO e.1 u) ∧ (retO e.1 u).subs = [(5, u)] ∧ u.st = .performed ∧ replyDue (sRet e.1 u).dev (retO e.1 u) u = true ∧ (sRet e.1 u).dev.warps.get? 0 = some wRet) &&
        wRet.acquires.isEmpty && wRet.stop.isNone) = true ∧
    ((lanesOn 5#64).all fun i => !(0#4).getLsbD (elemSector 0 ((retO .pf (retU .load .performed 0x1400 0)).addr.getD i 0))) = true ∧
    ((lanesOn 5#64).any fun i => (8#4).getLsbD (elemSector 7 ((retO .pf (retU .load .performed 0x1400 0)).addr.getD i 0))) = true := by decide +kernel
theorem witness_LaneRepliesAreTaken_acks :
    ([(0x1400, SubSt.performed, false), (0x8000000000000 / 64, .performed, true), (0x8000000000000 / 64, .far, true)].all fun e => let u := retU (.store []) e.2.1 e.1 0
      plain (retO .store u) && decide ((sRet .store u).dev.ops.get? 1 = some (retO .store u) ∧ (sRet .store u).dev.warps.get? 0 = some wRet ∧
        ((isPeer (u.line * 64) || isHost (u.line * 64)) && u.status == 0) = e.2.2 ∧ replyDue (sRet .store u).dev (retO .store u) u = true) &&
        (!e.2.2 || isHost (u.line * 64))) = true ∧
    (let u := { retU (.store []) .performed (0x8000000000000 / 64) 0 with status := 2 }
     replyDue (sRet .store u).dev (retO .store u) u = true ∧ ((isPeer (u.line * 64) || isHost (u.line * 64)) && u.status == 0) = false) := by decide +kernel
end Sys2Proof.Tests
end

