-- ==== Sys2Proof/Tests/WitnessPans.lean ====
section
/-!
SUPPORT. Witnesses for the statements about the pans, translation, key-value answers and copies.
-/
namespace Sys2Proof.Tests
open Sys2Proof.Machine
set_option Elab.async false

/-! ### The pans -/

/-- Line 0x1400 of partition 0 and its home pan. -/
def aLine : Nat := 0x1400
def hp : Nat := panOf tDev 0 aLine
def bk : Nat := bankOf (aLine * 64)
def pOp (act : Act) : MemOp := { (MemOp.new 0 tWarp 0 .scalar .g (.sload 22 5) 0x10000 0) with subs := [(aLine, Sub.new aLine act)] }
def pLine (valid : BitVec 4) : PanLine := { PanLine.fresh 0 0 0 with valid := valid }
def pDev (act : Act) (x : Pan) : Dev := { tDev with ops := [(1, pOp act)], nextId := 2, pans := [(hp, x)], mem := memWriteN tTables (aLine * 64) 64 0x1234567890 }
def px (valid : BitVec 4) : Pan := { Pan.empty with lines := [(aLine, pLine valid)], banks := [(bk, [(1, aLine)])] }
def xConf : Pan := { Pan.empty with lines := [(aLine, pLine 15)], conflict := [(1, aLine), (7, 7)] }
def rt (rid word : Nat) : Act := .routine rid word 5 0 0 0
def xMiss : Pan := { Pan.empty with banks := [(bk, [(1, aLine)])] }
theorem witness_PansPerformRequestsAndRoutines : isHbm (aLine * 64) = true ∧ hp = panOf (pDev .load (px 15)) 0 aLine ∧
    ([Act.load, .store [(63, 7, 255)], .zero, rt 28 0, rt 1 1, rt 63 15].all fun a => let d := pDev a (px 15)
      decide (d.ops.get? 1 = some (pOp a) ∧ (pOp a).subs.get? aLine = some (Sub.new aLine a) ∧ (d.pan hp).banks.getD bk [] = (1, aLine) :: [] ∧ (d.pan hp).conflict = []) &&
        (d.pan hp).fwd.isEmpty && !blocked (d.pan hp) d.clock bk (Sub.new aLine a) && missing (d.pan hp) (Sub.new aLine a) == 0) = true ∧
    OpKind.sload 22 5 ≠ .agent ∧ (OpKind.sload 22 5 matches .peer ..) = false ∧ (OpKind.sload 22 5 matches .pin ..) = false := by decide +kernel
theorem witness_PansPerformRequestsAndRoutines_routines : let d := pDev .load (px 15)
    (mapV (panEntry d hp 28) = true ∧ (slotCode d 0 (mapSlot (panEntry d hp 28))).isEmpty = false ∧ mapV (panEntry d hp 63) = false) ∧
    (mapV (panEntry d hp 1) = true ∧ (slotCode d 0 (mapSlot (panEntry d hp 1))).isEmpty = false ∧ mapW64 (panEntry d hp 1) = true) := by decide +kernel
/-- A load with hint 4 of an absent line needs no fill. -/
theorem witness_PansPerformRequestsAndRoutines_hint4 : let u := { Sub.new aLine .load with hint := 4 }
    missing xMiss u = 0 ∧ blocked xMiss 1000 bk u = false ∧ (xMiss.line aLine).isNone = true ∧ sectorsNeeded u.act = 15 := by decide +kernel
theorem witness_PansPerformRequestsAndRoutines_miss : missing xMiss (Sub.new aLine .load) ≠ 0 ∧ (allocate (pDev .load xMiss) hp aLine 0).isSome = true ∧
    blocked ((pDev .load xMiss).pan hp) 1000 bk (Sub.new aLine .load) = false ∧ (xConf.conflict = (1, aLine) :: [(7, 7)] ∧
      blocked xConf 1000 bk (Sub.new aLine .load) = false ∧ (xConf.line aLine).isSome = true ∧ missing xConf (Sub.new aLine .load) = 0) := by decide +kernel
def fillLine : PanLine := { pLine 1 with filling := true, want := 14 }
def sFill : State := devAt { pDev .load { Pan.empty with lines := [(aLine, fillLine)] } with hbmErr := [aLine * 4 + 3] }
theorem witness_PansPerformRequestsAndRoutines_fill : (sFill.dev.pan hp).line aLine = some fillLine ∧ fillLine.filling = true ∧
    fillLine.want.getLsbD 3 = true ∧ hbmError sFill.dev (aLine * 4 + 3) = true := by decide +kernel
def runOf (slot : Nat) : Run := ⟨1, aLine, aLine, slot, 0⟩
def runAt (act : Act) (slot : Nat) (bad : List Nat) : State :=
  devAt { pDev act { Pan.empty with lines := [(aLine, pLine 15)], runs := [(bk, runOf slot)] } with poison := bad }
def failsAt (slot word : Nat) : Option Nat :=
  (rtRun (slotCode (runAt (rt slot word) slot []).dev 0 slot) (rtStart (lineAt (runAt (rt slot word) slot []).dev aLine) word [5, 0, 0, 0])).fail
theorem witness_PansPerformRequestsAndRoutines_commit : (runAt (rt 0 15) 0 []).dev.ops.get? (runOf 0).op = some (pOp (rt 0 15)) ∧
    (pOp (rt 0 15)).subs.get? (runOf 0).key = some (Sub.new aLine (rt 0 15)) ∧ ((runAt (rt 0 15) 0 []).dev.pan hp).runs.get? bk = some (runOf 0) ∧
    linePoison (runAt (rt 0 0) 0 [aLine * 4 + 3]).dev aLine ≠ 0 ∧ linePoison (runAt (rt 0 15) 0 []).dev aLine = 0 ∧ failsAt 0 15 = none := by decide +kernel
/-- A routine in slot 40 that fails with code 1. -/
def sFail : State := devAt { (runAt (rt 40 0) 40 []).dev with parts := [(0, { tPart with code := [(40, [rw_ 15 16 16 16 0, rw_ 22 0 0 0 1])] })] }
theorem witness_PansPerformRequestsAndRoutines_fails : (sFail.dev.pan hp).runs.get? bk = some (runOf 40) ∧ linePoison sFail.dev aLine = 0 ∧
    sFail.dev.ops.get? 1 = some (pOp (rt 40 0)) ∧ (rtRun (slotCode sFail.dev 0 40) (rtStart (lineAt sFail.dev aLine) 0 [5, 0, 0, 0])).fail = some 1 := by decide +kernel
def repU : Sub := { Sub.new aLine (rt 0 0) with st := .performed, reply := 77, status := 9 }
def repW : Warp := { tWarp with outA := [⟨1, false⟩], pendS := [(1, 62), (1, 63)] }
def repO : MemOp := { pOp (rt 0 0) with kind := .satom 62, path := .a, subs := [(aLine, repU)] }
def sRep : State := devAt { tDev with warps := [(0, repW)], ops := [(1, repO)], nextId := 2 }
theorem witness_PansPerformRequestsAndRoutines_reply : sRep.dev.ops.get? 1 = some repO ∧ repO.subs = [(aLine, repU)] ∧ repU.st = .performed ∧
    sRep.dev.warps.get? 0 = some repW ∧ (repO.path = .a ∧ repO.left = 0 ∧ repO.remotes = [] ∧ repO.waits = [] ∧ repO.bad = []) ∧ (repW.acquires = [] ∧ replyDue sRep.dev repO repU = true) := by decide +kernel

/-- A line that moves to the pan next to its home, and one that is recalled from there. -/
def np : Nat := (hp + 1) % 4
def moving : PanLine := { pLine 15 with moving := true, lastCluster := np, run := 7, dirty := 1 }
def pans2 (a b : Pan) : Dev := { tDev with pans := if hp < np then [(hp, a), (np, b)] else [(np, b), (hp, a)] }
def dMove : Dev := pans2 { Pan.empty with lines := [(aLine, moving)] } Pan.empty
def dMoved : Dev := pans2 { Pan.empty with lines := [(aLine, moving)] } { Pan.empty with lines := [(aLine, pLine 15)] }
def dBack : Dev := pans2 { Pan.empty with lines := [(aLine, pLine 15)], fwd := [(aLine, np), (9, np)] } { Pan.empty with lines := [(aLine, { moving with lastCluster := hp })] }
theorem witness_LinesMoveAndWaysAreCarved : (dMove.pan hp).line aLine = some moving ∧ moving.moving = true ∧ moveTarget dMove hp aLine moving = np ∧ np ≠ hp ∧
    (dMove.pan np).line aLine = none ∧ (allocate dMove np aLine moving.hint).isSome = true ∧ (dMoved.pan np).line aLine = some (pLine 15) ∧
    (panOf dMoved (ownerOf dMoved aLine) aLine = hp ∧
      ((dMoved.pan np).banks.getD (bankOf (aLine * 64)) []).length + ((dMoved.pan hp).conflict.filter (asks dMoved aLine)).length ≤ 64) := by decide +kernel
theorem witness_LinesMoveAndWaysAreCarved_recall : (dBack.pan np).line aLine = some { moving with lastCluster := hp } ∧
    moveTarget dBack np aLine { moving with lastCluster := hp } = hp ∧ (dBack.pan hp).line aLine = some (pLine 15) ∧
    (let d := pans2 { Pan.empty with fwd := [(aLine, np), (9, np)] } Pan.empty
     (d.pan hp).fwd.find? (fun f => f.1 == aLine) = some (aLine, np) ∧ (d.pan np).line aLine = none ∧ queued d np aLine = false ∧
       (d.pan np).conflict.any (asks d aLine) = false ∧ (d.pan hp).flushes = []) ∧ queued dBack np aLine = false ∧
    ((dBack.pan hp).banks.getD (bankOf (aLine * 64)) []).length + ((dBack.pan np).conflict.filter (asks dBack aLine)).length ≤ 64 := by decide +kernel
/-- A flush that waits for the notice. -/
def flOp : MemOp := { pOp .flush with kind := .cache }
def dFl : Dev := { pans2 { Pan.empty with fwd := [(aLine, np)], flushes := [(aLine, (1, aLine))] } Pan.empty with ops := [(1, flOp)] }
theorem witness_LinesMoveAndWaysAreCarved_flush : (dFl.pan hp).flushes.filter (fun f => f.1 == aLine) = [(aLine, (1, aLine))] ∧
    dFl.ops.get? 1 = some flOp ∧ flOp.subs.get? aLine = some (Sub.new aLine .flush) ∧ flOp.kind = .cache := by decide +kernel
/-- Another line of the same home waits to move there once the entry of aLine has gone. -/
def mLine : Nat := aLine + 17
def dueLine : PanLine := { pLine 15 with due := true, lastCluster := np, run := 7 }
def dDue : Dev := pans2 { Pan.empty with fwd := [(aLine, np)], lines := [(mLine, dueLine)], pcarve := 1024 } Pan.empty
theorem witness_LinesMoveAndWaysAreCarved_due : panOf dDue (ownerOf dDue mLine) mLine = hp ∧ (dDue.pan hp).line mLine = some dueLine ∧
    (dDue.pan hp).lines.filter (fun e => e.2.due) = [(mLine, dueLine)] ∧ bit (dDue.pan hp).pcarve 10 = true ∧ movable dDue hp mLine dueLine = true ∧
    migrationHeld dDue (ownerOf dDue mLine) = false ∧ movedOut dDue hp ≤ 4096 ∧ (dDue.pan np).line aLine = none ∧
    (let q := dDue.part (ownerOf dDue mLine)
     q.basePan ≤ np ∧ np < q.basePan + q.pans) := by decide +kernel
/-- The target is 2 and 4 ways are carved out: way 13 returns first. -/
def xReturn : Pan := { Pan.empty with pcarve := mkCarve 2 4 true false, shadow := 0xF000 }
theorem witness_LinesMoveAndWaysAreCarved_return : xReturn.draining = none ∧ nextReturn xReturn = some 13 ∧ nextReturn Pan.empty = none := by
  decide +kernel
/-- BUSY: the target is 5 and 4 ways are carved out. -/
def xBusy : Pan := { Pan.empty with pcarve := mkCarve 5 4 true false, shadow := 0xF000 }
def xDrain (moving_ : Bool) : Pan := { Pan.empty with draining := some 15, lines := [(5, { pLine 15 with way := 15, moving := moving_ }), (aLine, pLine 15)] }
theorem witness_LinesMoveAndWaysAreCarved_carve : (8 < bits (9 : W64) 3 0 ∧ ¬ (8 < bits (8 : W64) 3 0)) ∧
    (bits (6 : W64) 3 0 ≠ bits xBusy.pcarve 3 0 ∧ bits xBusy.pcarve 3 0 ≠ bits xBusy.pcarve 7 4) ∧ bits Pan.empty.pcarve 3 0 = bits Pan.empty.pcarve 7 4 ∧
    (xDrain false).draining = some 15 ∧ ((xDrain false).lines.all fun e => e.2.way != 15 || !(e.2.filling || e.2.moving || !e.2.pins.isEmpty || e.2.owned 1000 || locked (xDrain false) e.1)) = true ∧
    ((xDrain true).lines.any fun e => e.2.way == 15 && e.2.moving) = true := by decide +kernel
def dAge : Dev := { tDev.setCluster 0 { tCluster with l1 := [(aLine, ⟨5, 0, 0, 0, 0⟩)] } with clock := 2048 }
theorem witness_LinesMoveAndWaysAreCarved_age : (dAge.cluster 0).l1.get? aLine = some ⟨5, 0, 0, 0, 0⟩ ∧ (⟨5, 0, 0, 0, 0⟩ : L1Line).filled + 2048 ≤ dAge.clock := by decide +kernel

/-! ### Translation -/

/-- A walk of the address 3·2^39 + 5·2^30 + 7·2^25 + 9·2^16 through tables at 0x3000, 0x4000, 0x5000 and 0x6000. -/
def wVa : Nat := 3 * 2 ^ 39 + 5 * 2 ^ 30 + 7 * 2 ^ 25 + 9 * 2 ^ 16
def dW : Dev := { tDev with mem := memWriteN (memWriteN (memWriteN (memWriteN [] (0x3000 + 24) 8 0x4001) (0x4000 + 40) 8 0x5001) (0x5000 + 56) 8 0x6001) (0x6000 + 72) 8 0x7000F }
def pteOf (level table va : Nat) : W64 := BitVec.ofNat 64 (devReadN dW (table + 8 * levelIndex level va) 8)
def pointerTo (level table next : Nat) : Bool := let e := pteOf level table wVa
  bit e 0 && !bit e 1 && !pteBad level e && next == bits e 51 8 * 256 && !isOutside next && inWindows dW 0 table (if level = 1 then 256 else 4096)
theorem witness_TranslationsAreWalkedAndDropped : bit (0x3001 : W64) 0 = true ∧ bits (0x3001 : W64) 51 12 * 4096 = 0x3000 ∧
    (pointerTo 3 0x3000 0x4000 && pointerTo 2 0x4000 0x5000 && pointerTo 1 0x5000 0x6000) = true ∧ inWindows dW 0 0x6000 4096 = true ∧
    (let leaf := pteOf 0 0x6000 wVa
     bit leaf 0 = true ∧ bit leaf 1 = true ∧ pteBad 0 leaf = false ∧ bits leaf 51 16 * 65536 = 0x70000 ∧ isOutside 0x70000 = false ∧ inWindows dW 0 0x70000 65536 = true) := by
  decide +kernel
theorem witness_TranslationsAreWalkedAndDropped_invalid : bit (pteOf 0 0x6000 (wVa + 65536)) 0 = false ∧ inWindows dW 0 0x3000 4096 = true ∧
    bit (pteOf 3 0x3000 (wVa + 2 ^ 39)) 0 = false ∧ (bits (0x1003 : W64) 63 52 = 0 ∧ bits (0x1003 : W64) 11 2 = 0) ∧ bits (0x1005 : W64) 11 2 ≠ 0 := by decide +kernel
def wk : Walk := ⟨0, 7, 0x3001, false, [.thread 0, .lanes 0, .job 0 2]⟩
/-- Walkers 0 to 62 are taken. -/
def dWalkStart : Dev := { tDev with dies := [(0, { Die.empty with misses := [wk, { wk with page := 9 }], walkers := (List.range 63).map (fun i => (i, wk)) })] }
def dWalk (w : Walk) : Dev := { tDev with clusters := [], dies := [(0, { Die.empty with walkers := [(63, w)] })] }
theorem witness_TranslationsAreWalkedAndDropped_walks : (dWalkStart.die 0).misses = wk :: [{ wk with page := 9 }] ∧ (dWalkStart.die 0).walkers.get? 63 = none ∧
    ((List.range 63).all fun j => ((dWalkStart.die 0).walkers.get? j).isSome) = true ∧ (dWalk wk).warps.get? 0 = some tWarp ∧
    ((dWalk { wk with stale := true }).die 0).walkers.get? 63 = some { wk with stale := true } := by decide +kernel
theorem witness_TranslationsAreWalkedAndDropped_answers : ((dWalk wk).die 0).walkers.get? 63 = some wk ∧ wk.stale = false ∧
    (walk (dWalk wk) 0 wk.base (wk.page * 65536) ((dWalk wk).die 0).ptrs).1 = .leaf tLeaf ∧
    (walk (dWalk { wk with page := 0x8000 }) 0 wk.base (0x8000 * 65536) ((dWalk wk).die 0).ptrs).1 = .fault .notMapped := by decide +kernel
def xBusyPart : Part := { tPart with shoot := some (0, 10), xinvc := 0x8000000000000000 }
def dShoot (ops : Tab MemOp) : Dev := { tDev.setPart 0 xBusyPart with ops := ops }
theorem witness_TranslationsAreWalkedAndDropped_shootdown : (bits (0x8000000000000003 : W64) 1 0 = 3 ∧ bits (0x8000000000000002 : W64) 1 0 ≠ 3 ∧
      bit (0x8000000000000002 : W64) 63 = true) ∧ bit ((dShoot []).part 0).xinvc 63 = true ∧ bit (tDev.part 0).xinvc 63 = false ∧
    ((dShoot []).part 0).shoot = some (0, 10) ∧ readersLeft (dShoot []) 0 (0, 10) = false ∧
    readersLeft (dShoot [(1, { (MemOp.new 0 tWarp 0 .lane .g .pf 0 0) with subs := [(0, { Sub.new 9 .load with under := true })] })]) 0 (0, 10) = true := by decide +kernel

/-! ### Key-value answers and copies -/

def kvU (data : Nat) : Sub := { Sub.new 0x1400 .load with st := .performed, data := BitVec.ofNat 512 (data * 2 ^ 64), version := 0x50000, reply := 7, status := 2, lanes := 4 }
def kvR : Remote := ⟨0, 0x30, 0, 0, true, true, false⟩
def kvOp (u : Sub) : MemOp :=
  { (MemOp.new 0 tWarp 0 .lane .t (.kvx 12 0 3 false) 0x12000 0x12000) with lanes := 0x8000000000000000, addr := [(0, 0x50008)], subs := [(0, u)], remotes := [(63, kvR)] }
def kvW : Warp := { tWarp with outT := [⟨1, false⟩] }
def dKv (u : Sub) : Dev := { tDev with ops := [(1, kvOp u)], nextId := 2, warps := [(0, kvW)] }
theorem witness_KvAnswersReturnAndCopiesFill : ([0x60041, 0].all fun x => let u := kvU x
      decide ((dKv u).ops.get? 1 = some (kvOp u) ∧ (kvOp u).kind = .kvx 12 0 3 false ∧ (kvOp u).subs = [(0, u)] ∧ (kvOp u).remotes = [(63, kvR)] ∧ kvR.crew = 0 ∧ u.st = .performed) && replyDue (dKv u) (kvOp u) u &&
      decide ((kvOp u).failed = [] ∧ (kvOp u).left = 0 ∧ (kvOp u).lanes.getLsbD 63 = true ∧ (dKv u).warps.get? 0 = some kvW)) = true ∧
    (let e := kvEntryOf (kvOp (kvU 0x60041)) 0
     bit e 0 = true ∧ bits e 5 1 = 0 ∧ bits e 51 6 * 64 + kvR.off < 2 ^ 52) ∧ bit (kvEntryOf (kvOp (kvU 0)) 0) 0 = false := by decide +kernel
def invOp (waits : List Nat) : MemOp := { (MemOp.new 0 tWarp 0 .scalar .t (.kvinv 7 2 3) 0x10000 0) with waits := waits }
def dInv (waits : List Nat) : Dev := { tDev with ops := [(1, invOp waits)], nextId := 2, warps := [(0, kvW)], clusters := [(0, { tCluster with kv := [⟨0, 0x50000, 7, 4, 5⟩] })] }
theorem witness_KvAnswersReturnAndCopiesFill_inv : ([[0], [0, 1]].all fun ws => decide ((dInv ws).ops.get? 1 = some (invOp ws) ∧ (invOp ws).waits.contains 0 = true ∧
      kvInFlight (dInv ws) 0 = [] ∧ (dInv ws).warps.get? 0 = some kvW) && ((dInv ws).cluster 0).kvinv.isEmpty) = true ∧
    (let o := invOp [0]
     kvW.acquires = [] ∧ o.subs = [] ∧ o.remotes = [] ∧ o.left = 0 ∧ o.bad = [] ∧ o.path = .t) := by decide +kernel
def eng (jobs : List Job) : Dev := { tDev with engines := [(0, ⟨jobs, [], 0⟩)] }
def job (run : Bool) (crew win : Nat) : Job := ⟨crew, win, run, [], 0, none⟩
theorem witness_KvAnswersReturnAndCopiesFill_jobs :
    4 ≤ (((eng [job true 0 0, job true 0 1, job true 0 2, job true 0 3, job false 0 4]).engine 0).jobs.filter (·.running)).length ∧
    (let x := (eng [job true 0 0, job true 0 1, job true 0 2, job false 0 4, job false 32 5]).engine 0
     (x.jobs.filter (·.running)).length < 4 ∧ x.queue.find? (fun j => j.crew / 32 != x.last) = some (job false 32 5)) ∧
    (let x := (eng [job false 0 4]).engine 0
     x.queue.find? (fun j => j.crew / 32 != x.last) = none ∧ x.queue.head? = some (job false 0 4)) := by decide +kernel
def copyWin (base : Nat) : Win := { Win.bound (BitVec.ofNat 512 (descN + base)) with state := .filling, filler := .copy, twaddr := 0x12000, tblock := 0x12000 }
def copyCrew (base : Nat) : Crew := { tCrew with wins := [(2, copyWin base)] }
/-- The source lines are valid in their pans. -/
def srcPan (l : Nat) : Nat × Pan := (panOf tDev 0 l, { Pan.empty with lines := [(l, pLine 15)] })
def dCopy (base : Nat) (tl : List TlbEntry) (ans : List Answer) : Dev :=
  { tDev with
    mem := memWriteN tTables 0x60000 64 0x998877665544332211, crews := [(0, copyCrew base)], engines := [(0, ⟨[job true 0 2], tl, 0⟩)],
    pans := [srcPan 0x1800], dies := [(0, { Die.empty with answers := ans })] }
def notMapped : List Answer := [⟨.job 0 2, 0, 0x8006, .fault .notMapped⟩]
/-- The first element of a source at 0x60000 is the last of its line's 64; at 0x60020 the line holds 32 of them. -/
theorem witness_KvAnswersReturnAndCopiesFill_copy : ([0, 0x20, 0x80000000].all fun b => decide ((dCopy b tTlb []).crews.get? 0 = some (copyCrew b)) &&
      decide (((dCopy b tTlb []).engine (engineOf (copyCrew b).cluster)).jobs.find? (fun j => j.crew == 0 && j.win == 2) = some (job true 0 2)) &&
      !earlierAccess (dCopy b tTlb []) (copyCrew b).cluster ((copyCrew b).win 2) [0x1800]) = true ∧
    ([0, 0x20].all fun b => let x := ((copyCrew b).win 2).desc
     !dTranspose x && !dGather x && dCount x 0 == 64 && dEsz x == 1 && dLimit x 0 == 64 && dSrc x == 0x60000 + b) = true ∧
    linesOf 0x60000 1 = [0x1800] ∧ linesOf 0x60020 1 = [0x1800] ∧ engineReady (dCopy 0 tTlb []) 0 0x1800 = true ∧
    (0x60000 + 1 - 1) / 64 * 64 + 64 - 0x60000 = 64 ∧ (0x60020 + 1 - 1) / 64 * 64 + 64 - 0x60020 = 32 := by decide +kernel
theorem witness_KvAnswersReturnAndCopiesFill_sources : (let x := ((copyCrew 0).win 2).desc
     [1, 2, 3].all fun k => dCount x k == 1 && dLimit x k == 1) = true ∧
    ((List.range 96).all fun k => agentX (dCopy 0 tTlb []) 0 ((dCopy 0 tTlb []).engine 0).tlb (.job 0 2) 0 (0x60000 + k) .read == .hit (0x60000 + k) tLeaf &&
      !badSector (dCopy 0 tTlb []) (tLeaf.pa (0x60000 + k) / 16)) = true ∧
    Memory.wf ((dCopy 0 tTlb []).cluster 0).scratch = true ∧
    agentX (dCopy 0x80000000 [] []) 0 [] (.job 0 2) 0 0x80060000 .read = .miss ∧
    agentX (dCopy 0x80000000 [] notMapped) 0 [] (.job 0 2) 0 0x80060000 .read = .fault .notMapped := by decide +kernel
end Sys2Proof.Tests
end

