-- ==== Sys2Proof/Tests/WitnessUnits.lean ====
section
/-!
SUPPORT. Witnesses for the statements about group loads, the matrix engine, the rake and pre-emption.
-/
namespace Sys2Proof.Tests
open Sys2Proof.Machine
set_option Elab.async false

/-! ### Group loads -/

/-- Group 3 of two members; its window is number 2, two lines from 0x60000, with gate 1. -/
def gDesc : Desc := BitVec.ofNat 512 (0x60000 + 128 * 2 ^ 160 + (128 + 2 ^ 16 + 2 ^ 32 + 2 ^ 48) * 2 ^ 256 + (128 + 2 ^ 16 + 2 ^ 32 + 2 ^ 48) * 2 ^ 320 + (3 * 2 ^ 16 + 2 ^ 22 + 2 ^ 23) * 2 ^ 480)
def gWin (st : WState) (fl : Filler) (got : Nat) : Win := { Win.bound gDesc with state := st, filler := fl, got := got }
def gCrew (x : Win) : Crew := { tCrew with wins := [(2, x)], groups := [(3, 0)] }
def gGrp : Group := ⟨2, 30, 30, 0x50000, [(0, (0, tCrew.id, true, 1)), (1, (77, ⟨0, 0, 0, 9⟩, false, 0))], 4, [], []⟩
def gRec (st : GState) : GRec := ⟨3, st, 0x60000, 128, 0, tCrew.id, 1, 990, 3, 0, 0, 0, 0, 0, 5, 0, false, false, 0, [], [], 0, false, none⟩
def gDev (g : Group) (x : Win) (rs : List GRec) : Dev :=
  { (tDev.setPart 0 { tPart with groups := [(3, g)] }) with crews := [(0, gCrew x)], pans := [(3, { Pan.empty with records := rs })], mem := memWriteN tTables 0x60000 128 (3 ^ 500) }
def none_ : Win := gWin .absent .none 0
def filling : Win := gWin .filling .fill 1
def askAll : Group := { gGrp with asks := [(0, 0x60000, 128), (1, 0x60000, 128)] }
def askOne : Group := { gGrp with count := 1, members := [(0, (0, tCrew.id, true, 1))], asks := [(0, 0x60000, 128)] }
theorem witness_GroupLoadsRunThroughTheirRecord : recordPan (gDev askAll none_ []) 0 3 = 3 ∧
    ([(askAll, true), (askOne, false)].all fun e => let d := gDev e.1 none_ [{ gRec .lingering with gid := 9 }]
      decide (d.group 0 3 = some e.1 ∧ e.1.members.get? 0 = some (0, tCrew.id, true, 1) ∧ 0 < e.1.timer ∧ restoredAsks d 0 3 = []) && (d.pan 3).records.all (fun r => r.gid != 3) &&
        (e.2 == (e.1.members.length != e.1.count || BitVec.ofNat 64 (2 ^ 0) != e.1.mask))) = true := by decide +kernel
def holdRec : GRec := gRec .holding
/-- INIT asks for another source than the record's: its window may have the error. -/
def askBad : Group := { gGrp with asks := [(0, 0x70000, 128)] }
theorem witness_GroupLoadsRunThroughTheirRecord_error : let d := gDev askBad none_ [holdRec]
    askBad.members.get? 0 ≠ none ∧ restoredAsks d 0 3 = [] ∧ (d.pan 3).records.find? (holdingOf 3) = some holdRec ∧ holdRec.srcpa ≠ 0x70000 ∧
      memberCrew d askBad 0 = some (0, gCrew none_) ∧ groupWin (gCrew none_) 3 = some (2, none_) ∧
      (groupWin (gCrew (gWin .filling .ask 0)) 3).map (·.2.errs) = some true := by decide +kernel
theorem witness_GroupLoadsRunThroughTheirRecord_timer : let d := gDev gGrp none_ [holdRec]
    (d.pan 3).records.find? (holdingOf 3) = some holdRec ∧ ((d.pan 3).records.all fun x => !activeOf 3 x) = true ∧ gGrp.timer ≤ 3 * (d.clock - holdRec.born) ∧
      holdRec.ask ≠ gGrp.mask ∧ 3 * (d.clock - ({ holdRec with born := 991 } : GRec).born) < gGrp.timer := by decide +kernel
def offRec : GRec := gRec .offering
theorem witness_GroupLoadsRunThroughTheirRecord_offer : let d := gDev gGrp none_ [offRec]
    activeRec d 0 3 = some offRec ∧ offRec.state = .offering ∧ (offRec.offered.getLsbD 0 = true ∧ offRec.offered.getLsbD 1 = true ∧ offRec.sent = 0) ∧
      memberCrew d gGrp 0 = some (0, gCrew none_) ∧ groupWin (gCrew none_) 3 = some (2, none_) ∧ memberCrew d gGrp 1 = none ∧
      (none_.gerr = false ∧ dSize none_.desc = offRec.size ∧ (gCrew none_).save = .none ∧ none_.state = .absent) := by decide +kernel
def sentRec : GRec := { gRec .offering with sent := 3, accepted := 1, answered := 2 }
def fillRec : GRec := { gRec .filling with accepted := 1, lines := [(0, (77, 1))] }
theorem witness_GroupLoadsRunThroughTheirRecord_fill : let d := gDev gGrp filling [fillRec]
    (activeRec (gDev gGrp filling [sentRec]) 0 3 = some sentRec ∧ sentRec.state = .offering ∧ sentRec.sent.getLsbD 0 = true ∧ sentRec.answered.getLsbD 0 = false) ∧
      activeRec d 0 3 = some fillRec ∧ memberCrew d gGrp 0 = some (0, gCrew filling) ∧ groupWin (gCrew filling) 3 = some (2, filling) ∧
      (gCrew filling).win 2 = filling ∧ (filling.state = .filling ∧ filling.filler = .fill ∧ filling.got.testBit 1 = false ∧ filling.got.testBit 0 = true) := by decide +kernel
theorem witness_GroupLoadsRunThroughTheirRecord_line : let d := gDev gGrp filling [fillRec]
    gGrp.resends = [] ∧ fillRec.state = .filling ∧ (fillRec.accepted.getLsbD 0 = true ∧ fillRec.filled.getLsbD 0 = false ∧ 1 < fillRec.size / 64) ∧
      Memory.wf (d.cluster 0).scratch = true ∧ fillRec.lines.get? 1 = none ∧ fillRec.lines.get? 0 = some (77, 1) ∧
      filling.got ||| 2 ^ 1 = 2 ^ (fillRec.size / 64) - 1 ∧ (gWin .filling .fill 0).got.testBit 0 = false := by decide +kernel
/-- Line 1 of the load is in its pan, or is to be fetched. -/
theorem witness_GroupLoadsRunThroughTheirRecord_fetch : let l := fillRec.srcpa / 64 + 1
    let q := panOf tDev 0 l
    let d := gDev gGrp filling [fillRec]
    lineSendable (d.setPan q { Pan.empty with lines := [(l, pLine 15)] }) 0 l = true ∧
      (fillRec.lines.get? 1 = none ∧ currentPan d 0 l = panOf d 0 l ∧ lineFree d l = true ∧ missing (d.pan q) (Sub.new l .load) ≠ 0 ∧
        (allocate d (panOf d 0 l) l 0).isSome = true) := by decide +kernel
/-- A record that failed is due before a load that goes on. -/
def failRec : GRec := { gRec .failing with status := 2, errpa := 0x70000 }
theorem witness_GroupLoadsRunThroughTheirRecord_failing : let d := gDev gGrp none_ [failRec, fillRec]
    (d.pan 3).records.filter (dueOf 3) = [failRec] ∧ failRec.put = none ∧ isPeer gGrp.cpa = false ∧ storeWaits d 0 gGrp.cpa 64 = false ∧
      isPeer (2 ^ 50) = true := by decide +kernel
def doneRec : GRec := { gRec .filling with accepted := 3, filled := 3, done := 2 }
def complRec : GRec := { gRec .completing with accepted := 3, filled := 3, done := 3 }
def lingRec (at_ : Nat) : GRec := { gRec .lingering with linger := at_ }
theorem witness_GroupLoadsRunThroughTheirRecord_end : let d := gDev gGrp (gWin .present .none 0) [complRec]
    (activeRec (gDev gGrp none_ [doneRec]) 0 3 = some doneRec ∧ doneRec.state = .filling ∧ doneRec.filled.getLsbD 0 = true) ∧ activeRec d 0 3 = some complRec ∧
      (complRec.state = .completing ∧ complRec.waiting = [] ∧ (d.pan 3).records.filter (activeOf 3) = [complRec] ∧ gGrp.linger ≠ 0) ∧
      ((d.pan 3).records.all fun x => x.state == .lingering || x == complRec) = true ∧ complRec.initId = tCrew.id ∧ gGrp.members.get? complRec.init = some (0, tCrew.id, true, 1) ∧
      (d.crews.get? 0).map (·.id) = some tCrew.id := by decide +kernel
/-- A pin keeps the completion line, or the store to a peer is not acknowledged, or is. -/
def panPin (rs : List GRec) : Pan := { Pan.empty with records := rs, lines := [(0x1400, { PanLine.fresh 0 0 0 with pins := [5] })] }
def putRec (i : Nat) : GRec := { complRec with put := some i }
def gPut (i : Nat) : Dev := { gDev gGrp none_ [putRec i] with ops := [(1, pOp .load)] }
theorem witness_GroupLoadsRunThroughTheirRecord_put : complRec.put = none ∧ isPeer gGrp.cpa = false ∧
    storeWaits (gDev gGrp none_ [complRec]) 0 gGrp.cpa 64 = false ∧ panOf (gDev gGrp none_ []) 0 0x1400 = hp ∧
    (let d := (gDev gGrp none_ []).setPan hp (panPin (if hp = 3 then [complRec] else []))
     storeWaits (if hp = 3 then d else d.setPan 3 { Pan.empty with records := [complRec] }) 0 gGrp.cpa 64 = true) ∧
    ([1, 2].all fun i => decide (activeRec (gPut i) 0 3 = some (putRec i) ∧ (putRec i).put = some i ∧ (putRec i).state = .completing)) = true ∧
    (gPut 1).ops.get? 1 ≠ none ∧ (gPut 2).ops.get? 2 = none := by decide +kernel
theorem witness_GroupLoadsRunThroughTheirRecord_linger : ((gDev gGrp none_ [lingRec 990]).pan 3).records[0]? = some (lingRec 990) ∧ (lingRec 990).gid = 3 ∧
    (lingRec 990).state = .lingering ∧ gGrp.linger ≤ 3 * ((gDev gGrp none_ []).clock - (lingRec 990).linger) ∧
    3 * ((gDev gGrp none_ []).clock - (lingRec 991).linger) < gGrp.linger := by decide +kernel

/-! ### The matrix engine -/

def mOp (vl : List Nat) (started : Bool) : MOp :=
  { warp := 0, crew := 0, waddr := 0x10000, kind := .mma 1 0x50000 0x50000 1 (BitVec.ofNat 256 fb), tiles := [0], word := 0, started := started, vlines := vl, pins := [], holds := [], wants := [], fseqs := [], flags := 0, err := none }
def mDev (o : MOp) (hs : Tab Hold) (x : Pan) : Dev :=
  { tDev with mops := [(5, o)], nextId := 6, clusters := [(0, { tCluster with mq := [5], holds := hs })], pans := [(hp, x)], mem := memWriteN tTables 0x50000 64 0x1234 }
def opIn : MOp := mOp [aLine, 0x1401] false
theorem witness_MatrixOperationsRun : let d := mDev opIn [] { Pan.empty with lines := [(aLine, pLine 15)] }
    d.mops.get? 5 = some opIn ∧ (d.cluster 0).mq.contains 5 = true ∧ d.crews.get? opIn.crew = some tCrew ∧ d.nests.get? tCrew.id.nest = some tNest ∧
      tNest.ending = false ∧ currentPan d 0 aLine = hp ∧ aLine ∈ opIn.vlines ∧ pinXlate d 0 0 5 aLine = .hit 0x50000 tLeaf := by decide +kernel
theorem witness_MatrixOperationsRun_pin : let d := mDev opIn [] { Pan.empty with lines := [(aLine, pLine 15)] }
    (requestBefore d 0 5 aLine = false ∧ d.ops = []) ∧ (d.cluster 0).holds.get? aLine = none ∧ slotsGranted d 0 5 = true ∧ (d.pan hp).conflict = [] ∧
      blocked (d.pan hp) d.clock (bankOf (aLine * 64)) (Sub.new aLine .load) = false ∧ (d.pan hp).line aLine = some (pLine 15) ∧ (pLine 15).valid = 15#4 ∧
      ((mDev opIn [(aLine, ⟨9, 0, [4], []⟩)] Pan.empty).cluster 0).holds.get? aLine = some ⟨9, 0, [4], []⟩ ∧
      writeBefore d opIn.warp 5 aLine = false ∧ writeBefore { d with ops := [(1, pOp (.store [(0, 7, 255)]))] } opIn.warp 5 aLine = true ∧
      requestBefore { d with ops := [(1, pOp .load)] } 0 5 aLine = true := by decide +kernel
/-- Operand A in scratch bytes of window 3. -/
def fbW : BitVec 256 := BitVec.ofNat 256 (fb + 2 ^ 9 * 2 ^ 224)
def opWin : MOp := { mOp [] false with kind := .mma 1 0 0x50000 1 fbW }
def dWin (st : WState) : Dev := { mDev opWin [] Pan.empty with crews := [(0, crewAt st)] }
theorem witness_MatrixOperationsRun_window : ([WState.present, .filling].all fun st => decide ((dWin st).mops.get? 5 = some opWin ∧ (dWin st).crews.get? 0 = some (crewAt st) ∧
      (crewAt st).save = .none ∧ tileTurn (dWin st) 0 5 opWin = true ∧ mopWins (crewAt st) (mmaRanges 1 0 0x50000 1 fbW) = [3] ∧ 3 ∉ opWin.holds ∧
      ((dWin st).win 0 3).state = st ∧ ((dWin st).win 0 3).asking ≠ 1)) = true := by decide +kernel
theorem witness_MatrixOperationsRun_start : let o := mOp [] false
    (o.started = false ∧ o.fseqs = [] ∧ o.vlines = []) ∧ tCrew.save = .none ∧ tileTurn (mDev o [] Pan.empty) 0 5 o = true ∧
      mopWins tCrew (mmaRanges 1 0x50000 0x50000 1 (BitVec.ofNat 256 fb)) = [] ∧ ((mOp [] true).started = true ∧ (mOp [] true).tiles = [0]) := by decide +kernel
/-- A line that nothing refers to any more. -/
def unPan (fl : List (Nat × Nat)) : Pan := { Pan.empty with lines := [(aLine, { pLine 15 with pins := [0], flushAt := fl })] }
theorem witness_MatrixOperationsRun_unpin : ((mDev opIn [(aLine, ⟨9, 0, [4], []⟩)] Pan.empty).cluster 0).holds.get? aLine = some ⟨9, 0, [4], []⟩ ∧
    keepsSlot (mDev opIn [(aLine, ⟨9, 0, [], [(0, aLine)]⟩)] Pan.empty) 0 aLine ⟨9, 0, [], [(0, aLine)]⟩ = true ∧
    ([[], [(1, 2)]].all fun fl => let d := mDev (mOp [] false) [(aLine, ⟨9, 0, [], [(0, aLine)]⟩)] (unPan fl)
      (d.cluster 0).holds.get? aLine == some ⟨9, 0, [], [(0, aLine)]⟩ && !keepsSlot d 0 aLine ⟨9, 0, [], [(0, aLine)]⟩ && (d.pans.find? (fun q => match q.2.line aLine with
        | some y => y.pins.contains 0
        | none => false)) == some (hp, unPan fl)) = true := by decide +kernel
theorem witness_MatrixOperationsRun_dot : (List.replicate 16 (127 : Int)).length = 16 := by decide
def opDrain : MOp := { mOp [] false with kind := .drain 192 none [] [] 0 }
def wDrain : Warp := { tWarp with drains := [(5, 0, (List.range 64))] }
theorem witness_MatrixOperationsRun_drain : let d := { mDev opDrain [] Pan.empty with warps := [(0, wDrain)] }
    d.mops.get? 5 = some opDrain ∧ opDrain.tiles = [0] ∧ d.crews.get? opDrain.crew = some tCrew ∧ d.warps.get? opDrain.warp = some wDrain ∧
      (d.cluster 0).mq.contains 5 = true ∧ tileTurn d 0 5 opDrain = true ∧ earlierWritten d wDrain 0 = true ∧ (∀ e ∈ wDrain.drains, e.1 = 5 → e.2.1 ≤ wDrain.blocks) := by decide +kernel

/-! ### The rake -/

def nWait : Nest := { tNest with points := [], rows := [⟨[], 0, 4, 0, 0, 0⟩], nextCrew := 0, nextGang := 0 }
def dGang : Dev := { tDev with warps := [], crews := [], nests := [(0, nWait)] }
def nOver : Nest := { tNest with points := [⟨⟨[0], 0⟩, none, true, 0, false⟩], rows := [⟨[], 0, 1, 1, 0, 0⟩], newest := some [], launch := some (3, 0x80, 9, true) }
def dOver (n : Nest) : Dev := { tDev with crews := [], warps := [], nests := [(0, n)] }
theorem witness_GangsArePlacedAndPointsRetire : dGang.nests.get? 0 = some nWait ∧ wantsGang dGang 0 nWait = true ∧ (tryPlace dGang 0 nWait).isSome = true ∧
    (dGang.nests.all fun e => e.1 == 0) = true ∧ wantsGang tDev 0 tNest = false ∧
    (let pt := nOver.points.find? (fun q => q.pt.linear == 0 && q.retires)
     pt = some ⟨⟨[0], 0⟩, none, true, 0, false⟩ ∧ nOver.ending = false) := by decide +kernel
def nLeft : Nest := { nOver with points := [], rows := nOver.rows.map (fun r => if r.i = [] then retireRow 0 r else r) }
theorem witness_GangsArePlacedAndPointsRetire_over : ((dOver nOver).part 0).halted = false ∧ (dOver nOver).crews = [] ∧
    nOver.saved = [] ∧ nOver.put = none ∧ storeWaits (dOver nOver) 0 (nOver.pa + 192) 16 = false ∧ isPeer (nOver.pa + 192) = false ∧
    (let m := settleRows rowFuel nLeft.retireAll
     m.rows = [] ∧ m.points = [] ∧ m.nextRow = none) ∧ (nOver.outer = 0) ∧
    (dOver { nOver with ending := true }).savedNests = [] ∧ ((dOver { nOver with ending := true }).nests.all fun e => e.2.parent.isNone) = true := by decide +kernel

/-! ### Pre-emption -/

def crewSv (sv : SaveReq) : Crew := { tCrew with save := sv, saveAt := 1000 - tsave tDev 0 }
def dSv (sv : SaveReq) : Dev := { tDev with crews := [(0, crewSv sv)] }
theorem witness_CrewsAreSavedAndRestored : tDev.nests.get? tCrew.id.nest = some tNest ∧ tNest.ending = false ∧ tDev.crews.get? 0 = some tCrew ∧
    (tCrew.point.isSome = true ∧ tCrew.save = .none) ∧ (tDev.crews.all fun e => e.2.id.nest != 0 || e.2.point.isSome) = true ∧ tNest.idem = false ∧
    ((dSv .pending).crews.get? 0 = some (crewSv .pending) ∧ (crewSv .pending).saveAt + tsave (dSv .pending) 0 ≤ (dSv .pending).clock) ∧
    ((dSv .drain).crews.get? 0 = some (crewSv .drain) ∧ (crewSv .drain).point ≠ none) := by decide +kernel
/-- An idempotent nest; and TSAVE of 1 µs, not over yet. -/
def nIdem : Nest := { tNest with record := tRecord ||| BitVec.ofNat 2048 (256 * 2 ^ (8 * 52)) }
def dSvNow : Dev := { tDev.setPart 0 { tPart with pctl := tPart.pctl ||| 0x0001000000000000 } with crews := [(0, { tCrew with save := .pending, saveAt := 1000 })] }
theorem witness_CrewsAreSavedAndRestored_again : nIdem.idem = true ∧ (nIdem.points.all fun q => !q.launched) = true ∧ tCrew.point.isSome = true ∧
    ((gangOf dSvNow tCrew).all fun e => decide (dSvNow.clock < e.2.saveAt + tsave dSvNow e.2.id.part)) = true := by decide +kernel
theorem witness_CrewsAreSavedAndRestored_save : let d := dSv .full
    gangOf d (crewSv .full) = [(0, crewSv .full)] ∧ (crewSv .full).save = .full ∧ tNest.retireAll.points ≠ [] ∧ d.colls = [] ∧ d.warps.get? 0 = some tWarp ∧
      (tWarp.outG = [] ∧ tWarp.outX = [] ∧ tWarp.outA = [] ∧ tWarp.outT = [] ∧ tWarp.install = none) ∧ (tWarp.stop = none ∧ tWarp.replayOp = none) ∧
      (crewSv .full).wins = [] ∧ d.mops = [] := by decide +kernel
/-- The crew has left its cluster: its context is in its nest. -/
def ctxOf : Context := ⟨tCrew, [tWarp], [], [], [], [], [], [], true⟩
def nSaved : Nest := { tNest with saved := [[ctxOf]] }
def sSaved : State := devAt { tDev with warps := [], crews := [], nests := [(0, nSaved)] }
theorem witness_CrewsAreSavedAndRestored_restore : sSaved.dev.nests.get? 0 = some nSaved ∧ nSaved.ending = false ∧
    nSaved.saved.find? (fun g => g.any (fun x => x.crew.gang == ctxOf.crew.gang)) = some [ctxOf] ∧ (nSaved.stopped = false ∧ (sSaved.dev.part nSaved.part).halted = false) ∧
    nSaved.crewMax = 0 ∧ sSaved.dev.crews = [] ∧ (ctxOf.crew.id.nest = 0 ∧ ctxOf.crew.point ≠ none ∧ (sSaved.dev.part nSaved.part).spanLog = 0) ∧
    (chooseSpot sSaved.dev ⟨ctxOf.warps.map (·.valloc), ctxOf.crew.ssize, ctxOf.crew.tiles.keys.foldl (fun m t => m + 2 ^ t) 0⟩ (sSaved.dev.part nSaved.part).firstSpan).isSome = true := by
  decide +kernel

/-- A nest whose record names a save area at 0x70000. -/
def nArea : Nest := { tNest with record := tRecord ||| BitVec.ofNat 2048 (0x70000 * 2 ^ 320) }
def dNest (n : Nest) (cs : Tab Crew) (h : Bool) : Dev := { tDev.setPart 0 { tPart with halted := h } with crews := cs, nests := [(0, n)], dies := [(0, { Die.empty with tlb := tTlb })] }
def nStop : Nest := { nArea with stopped := true }
theorem witness_NestsAndPartitionsAreSwapped : let d := dNest nArea [(0, tCrew)] false
    (d.nests.get? 0 = some nArea ∧ nArea.ending = false ∧ (d.part 0).halted = false) ∧ (d.nests.all fun e => e.2.parent.isNone) = true ∧
      (waitingPts nArea).length + nArea.rerun.length + (savedPts nArea).length ≤ 192 ∧ (nArea.stopped = false ∧ d.crews.get? 0 = some tCrew ∧ tCrew.save = .none) ∧
      (d.crews.all fun e => e.2.point.isSome) = true := by decide +kernel
theorem witness_NestsAndPartitionsAreSwapped_area : (dNest nStop [] false).nests.get? 0 = some nStop ∧ nStop.stopped = true ∧ (dNest nStop [] false).crews = [] ∧
    (areaPlaces (dNest nStop [] false) 0 0 (recField nStop.record 40 8) .write).isSome = true ∧ ((dNest nArea [] true).part 0).halted = true ∧
    (areaPlaces (dNest nArea [] true) 0 0 (recField nArea.record 40 8) .write).isSome = true ∧ nArea.parent = none ∧ (dNest nArea [] true).savedNests = [] ∧
    (dNest nStop [] false).pans = [] ∧ (dNest nArea [] true).nests = [(0, nArea)] := by decide +kernel
def dSavedNest : Dev := { tDev with crews := [], nests := [], dies := [(0, { Die.empty with tlb := tTlb })], savedNests := [⟨nStop, 0x70000⟩] }
theorem witness_NestsAndPartitionsAreSwapped_restore : dSavedNest.savedNests[0]? = some ⟨nStop, 0x70000⟩ ∧ nStop.ending = false ∧ (dSavedNest.part 0).halted = false ∧
    rakeFor dSavedNest ((dSavedNest.part 0).firstSpan / 4) = some 0 ∧ ((List.range 64).find? fun i => (dSavedNest.nests.get? (0 * 64 + i)).isNone) = some 0 ∧
    (match areaPlaces dSavedNest 0 0 (recField nStop.record 40 8) .read with
     | some l => !(reloadNest nStop (l.map (fun a => devReadN dSavedNest a 16))).retireAll.points.isEmpty
     | none => false) = true := by decide +kernel
def dArr (l : List Mail) : Dev := { tDev with arrs := [⟨2, 0, tCrew.id, 1, true⟩], pans := [(2, { Pan.empty with mail := l })] }
theorem witness_NestsAndPartitionsAreSwapped_arrivals : ([[], [⟨tCrew.id, [(1, 2 ^ 32 - 2)], [], none⟩], [⟨tCrew.id, [], [], some 0⟩]].all fun l => (dArr l).arrs[0]? == some ⟨2, 0, tCrew.id, 1, true⟩ &&
      ((dArr l).pan 2).mail.find? (fun m => m.id == tCrew.id) == l.head? && l.all (fun m => m.counts.getD 1 0 < 2 ^ 32 - 1)) = true ∧
    (dArr []).crews.get? 0 = some tCrew := by decide +kernel
end Sys2Proof.Tests
end

