-- ==== Sys2Proof/Tests/WitnessQueues.lean ====
section
/-!
SUPPORT. Witnesses for the statements about traps, faults and queues.
-/
namespace Sys2Proof.Tests
open Sys2Proof.Machine
set_option Elab.async false

/-! ### Answers to traps and faults -/

def stopOf (c : Cls) (w : Bool) : Stop := ⟨c, .scalar, 4, some 7, w, []⟩
def wStop (c : Cls) (w : Bool) : Warp := { tWarp with stop := some (stopOf c w), sregs := [(1, 5), (2, 6)] }
def dStop (c : Cls) (w : Bool) : Dev := { tDev with warps := [(0, wStop c w)] }
theorem witness_TrapsAndFaultsAreAnswered : (dStop .routine true).warps.get? 0 = some (wStop .routine true) ∧ (wStop .routine true).stop = some (stopOf .routine true) ∧
    ((stopOf .routine true).written = true ∧ (stopOf .routine true).cls = .routine ∧ (stopOf .dataErr true).cls = .dataErr ∧ (stopOf .routine true).later = []) ∧ (stopOf .routine false).written = false ∧
    ({ stopOf .routine true with later := [9] } : Stop).later ≠ [] ∧
    ([Cls.sysc, .user].all fun c => (dStop c true).warps.find? (fun e => awaits 0 (dStop c true) 7 e.2) == some (0, wStop c true)) = true ∧
    (dStop .sysc true).nests.get? (nestKey (dStop .sysc true) (wStop .sysc true)) = some tNest := by decide +kernel
theorem witness_TrapsAndFaultsAreAnswered_values : (bits (0x400000007 : W64) 63 34 ≠ 0 ∧ bits (7 : W64) 63 34 = 0 ∧ bits (7 : W64) 33 32 = 0 ∧
    bits (0x100000007 : W64) 63 34 = 0 ∧ bits (0x100000007 : W64) 33 32 = 1 ∧ bits (7 : W64) 31 0 = 7 ∧ bits (0x100000007 : W64) 31 0 = 7) := by decide +kernel
def faultRec : FaultRec := ⟨0x80000000, 0, 0, .notMapped, 0, 0, 0, 0, 2 ^ 32 + 5⟩
def wRec : Warp := { tWarp with park := .records [2 ^ 32 + 5], xs := [(3, .fault .notMapped)] }
def dRec : Dev := ({ tDev with warps := [(0, wRec)] }).setPart 0 { tPart with open_ := [faultRec], fseq := 2 ^ 32 + 6 }
theorem witness_TrapsAndFaultsAreAnswered_fault : ([(5 : W64), 0x100000005].all fun v => (dRec.part 0).open_.find? (fun r => r.fseq % 2 ^ 32 == bits v 31 0) == some faultRec) = true ∧
    bit (5 : W64) 32 = false ∧ bit (0x100000005 : W64) 32 = true ∧ dRec.warps.get? 0 = some wRec ∧ dRec.partOf wRec = 0 ∧ wRec.park = .records [faultRec.fseq] ∧
    (wRec.lpark = .run ∧ wRec.stop = none) ∧ (dRec.warps.map (·.1)).Nodup := by decide +kernel
def trapRec : TrapRec := ⟨0, 1, 2, 3, 4, 5, 6, .user, .scalar, 0, 0, 0, 0, [1, 2, 3, 4], 999⟩
/-- A ring of 16 records at 0x90000; 20 have been written. -/
def ringPart : Part := { tPart with heldT := [trapRec], tring := 0x90004, trw := 20, tseq := 3 }
def wHeld : Warp := { tWarp with stop := some ⟨.user, .scalar, 0, none, false, [0, 3]⟩ }
def dRing (v : W64) : Dev := ({ tDev with warps := [(0, wHeld)] }).setPart 0 { ringPart with trr := v }
theorem witness_TrapsAndFaultsAreAnswered_ring : ((dRing 5).part 0).heldF = [] ∧ ((dRing 5).part 0).heldT = [trapRec] ∧ ringSize (dRing 5 |>.part 0).tring = some 16 ∧
    (trapRec.at_ < (dRing 5).clock ∧ inWindows (dRing 5) 0 0x90000 (128 * 16) = true ∧ inWindows (dRing 5) 0 0x80000000000 (128 * 16) = false ∧ storeWaits (dRing 5) 0 (0x90000 + 128 * (20 % 16)) 128 = false) ∧ ringBase ringPart.tring = 0x90000 ∧
    ringPart.trw.toNat - 5 < 16 ∧ 16 ≤ ringPart.trw.toNat - 4 ∧ (dRing 5).warps.get? 0 = some wHeld ∧ (tDev.part 0).heldT = [] := by decide +kernel

/-! ### Queues -/

def qx : Queue := { Queue.empty with ring := 0xA0000, hmir := 0xB0000, head := 2, tail := 5, rlog := 4, state := 1, stale := 2 ^ 32 - 1 }
def dQ (x : Queue) (y : Nat) : Dev :=
  { tDev with
    dies := [(0, { Die.empty with tlb := tTlb })]
    queues := [(7, x)], slots := [(1, { Slot.empty with queue := some 7 })], mem := memWriteN (memWriteN tTables (0xA0000 + 128) 64 y) 0x51000 256 (childRec 3) }
def lined (d : Dev) (ls : List Nat) : Dev := ls.foldl (fun d l => d.setPan (panOf d 0 l) { d.pan (panOf d 0 l) with lines := (d.pan (panOf d 0 l)).lines.set l (pLine 15) }) d
/-- The lines that the tests read and store to are in their pans. -/
def dQm (x : Queue) (y : Nat) : Dev := lined (dQ x y) [0xA0080 / 64, 0xB0000 / 64, aLine, 0x51000 / 64, 0x51000 / 64 + 1, 0x51000 / 64 + 2, 0x51000 / 64 + 3]
theorem witness_QueuesTakeNotifiesAndSignals : (({ qx with state := 0 } : Queue).state ≠ 1 ∧ qx.state = 1) ∧ ((5 : BitVec 32) = qx.tail ∧ 2 ^ 31 ≤ ((4 : BitVec 32) - qx.tail).toNat) ∧
    (let fresh := fun (t : BitVec 32) => ¬ (t = qx.tail ∨ 2 ^ 31 ≤ (t - qx.tail).toNat)
     fresh 19 ∧ 2 ^ qx.rlog < ((19 : BitVec 32) - qx.head).toNat ∧ fresh 18 ∧ ((18 : BitVec 32) - qx.head).toNat ≤ 2 ^ qx.rlog) ∧
    slotOf (dQ qx 0) 7 ≠ none ∧ slotOf { dQ qx 0 with slots := [] } 7 = none := by decide +kernel
theorem witness_QueuesTakeNotifiesAndSignals_poll : ((dQ qx 0).slot 1).queue = some 7 ∧ qx.fseq = none ∧ ((dQ qx 0).part 0).halted = false ∧ (qx.pstep = 0 ∧ qx.head ≠ qx.tail) ∧
    qx.mirror = false ∧ bsMinimal State.reset.boot = false ∧ ((dQ qx 0).part 0).zeroing = false ∧
    (let f := fun (d : Dev) => readHead (headFetch d 1 qx) 1 qx
     f { dQ qx 0 with dies := [] } = .miss 0xA0080 ∧ f (dQm qx 0) = .ok 0 false ∧ f (dQm qx 9) = .ok 9 false) ∧ atHead qx 0 ≠ .bad ∧ atHead qx 9 = .bad := by decide +kernel
def blockOf (ring rlog state head tail : Nat) : List Byte :=
  bytesOf (ring + 0xB0000 * 2 ^ 64 + head * 2 ^ 128 + tail * 2 ^ 160 + rlog * 2 ^ 192 + state * 2 ^ 216) 128
theorem witness_QueuesTakeNotifiesAndSignals_block : ([(0xA0000, 4, true), (0x400000, 16, true), (0xA0040, 4, false), (0xA0000, 3, false), (0x800000, 17, false)].all fun e =>
      let y := blockQueue (blockOf e.1 e.2.1 1 2 5)
      decide (4 ≤ y.rlog ∧ y.rlog ≤ 16 ∧ y.ring % (64 * 2 ^ y.rlog) = 0) == e.2.2) = true ∧ (blockQueue (blockOf 0xA0000 4 1 2 18)).state = 1 ∧
    ((blockQueue (blockOf 0xA0000 4 1 2 18)).tail - (blockQueue (blockOf 0xA0000 4 1 2 18)).head).toNat ≤ 2 ^ 4 ∧ (blockQueue (blockOf 0xA0000 4 2 2 5)).state ≠ 1 ∧
    ((qx.state = 1 ∧ slotOf { dQ qx 0 with slots := [] } 7 = none) ∧ slotOf (dQ qx 0) 7 = some 1) ∧
    bit (2 : W64) 1 = true ∧ bit State.reset.boot.featctl 1 = false ∧ (tDev.queue 7).state ≠ 1 := by decide +kernel
def dSig (a : Nat) (op : Option Nat) (x : Pan) : Dev := { dQ qx 0 with signals := [⟨7, a, 9, true, op⟩], pans := [(hp, x)] }
def pinnedPan : Pan := { Pan.empty with lines := [(0x1400, { PanLine.fresh 0 0 0 with pins := [5] })] }
theorem witness_QueuesTakeNotifiesAndSignals_signal : (dSig 0x50000 none Pan.empty).signals[0]? = some ⟨7, 0x50000, 9, true, none⟩ ∧
    (dSig 0 none Pan.empty).signals[0]? = some ⟨7, 0, 9, true, none⟩ ∧ ((dSig 0x50000 (some 3) Pan.empty).signals[0]? = some ⟨7, 0x50000, 9, true, some 3⟩ ∧
      (dSig 0x50000 (some 3) Pan.empty).ops.get? 3 = none) ∧
    agentX (dSig 0x50000 none Pan.empty) 0 [] (.hart (64 + 7)) 0 0x50000 .write = .hit 0x50000 tLeaf ∧ isPeer 0x50000 = false ∧
    storeWaits (dSig 0x50000 none { Pan.empty with lines := [(aLine, pLine 15)] }) 0 0x50000 8 = false ∧ storeWaits (dSig 0x50000 none pinnedPan) 0 0x50000 8 = true := by decide +kernel

/-! ### Packets -/

def pkt (ty flags addr value saddr svalue : Nat) : Nat := 1 + ty * 2 ^ 16 + flags * 2 ^ 24 + addr * 2 ^ 64 + value * 2 ^ 128 + saddr * 2 ^ 192 + svalue * 2 ^ 256
def packet (ty flags addr value saddr svalue : Nat) : BitVec 512 := BitVec.ofNat 512 (pkt ty flags addr value saddr svalue)
def headRead (d : Dev) (x : Queue) : Dev := dropAnswers (headFetch d 1 x) 0 (.hart 1)
def afterHead (d : Dev) (x : Queue) : Dev := agentWriteN (headRead d x) 0 0xB0000 4 3
/-- The hart of slot 1 can store n bytes at va. -/
def canStore (d : Dev) (va n : Nat) : Bool :=
  decide (va + n ≤ 2 ^ 48) && agentX d 0 [] (.hart 1) 0 va .write == .hit va tLeaf && !isPeer va && !storeWaits d 0 va n
theorem witness_PacketsAreTakenInOrder : (((dQm qx 0).slot 1).queue = some 7 ∧ ((dQm qx 0).slot 1).fired = false ∧ ((dQm qx 0).slot 1).wfi = false ∧
      ((dQm qx 0).part 0).zeroing = false) ∧ (((dQm qx 0).slot 1).armed = false ∧ qx.between = true ∧ (qx.pstep = 0 ∧ qx.head ≠ qx.tail)) ∧
    ([(0, true), (1, true), (2, true), (3, true), (5, false)].all fun e => let y := pkt e.1 0 0x50000 0 0 0
      readHead (headFetch (dQm qx y) 1 qx) 1 qx == .ok y false && atHead qx y == .packet (BitVec.ofNat 512 y) && packetOk (BitVec.ofNat 512 y) == e.2 && pkType (BitVec.ofNat 512 y) == e.1) = true ∧
    canStore (headRead (dQm qx (pkt 0 0 0 0 0 0)) qx) qx.hmir 4 = true ∧ (qx.open_ = 0 ∧ ({ qx with open_ := 1 } : Queue).open_ ≠ 0) ∧
    canStore (afterHead (dQm qx (pkt 3 0 0x50000 77 0 0)) qx) 0x50000 8 = true := by decide +kernel
theorem witness_PacketsAreTakenInOrder_wait : (let d := afterHead (dQm qx (pkt 2 0 0x50000 5 0 0)) qx
     hartRead (hartFetch d 1 0 0x50000 8) 1 0 0x50000 8) = .ok 0 false ∧
    waitCond (pkSaddr (packet 2 0 0x50000 0 0 0)) 0 0 = true ∧ waitCond (pkSaddr (packet 2 0 0x50000 5 0 0)) 0 5 = false := by decide +kernel
/-- A record with a bad field, and a partition without quota. -/
def dLaunch (rec_ : Nat) (quota : Bool) (x : Queue) : Dev :=
  let d := { dQm x (pkt 1 2 0x51000 0 0x80 9) with mem := memWriteN (dQm x (pkt 1 2 0x51000 0 0x80 9)).mem 0x51000 256 rec_ }
  if quota then d else d.setPart 0 { tPart with pctl := 0x800000001 }
def stOf (d : Dev) (rec_ : Nat) : Nat := launchStatus d 0 0 (BitVec.ofNat 2048 rec_) [] tLeaf.w
theorem witness_PacketsAreTakenInOrder_launch : let y := packet 1 2 0x51000 0 0x80 9
    (pkSerial y = false ∧ pkValue y = 0 ∧ packetOk y = true ∧ pkType y = 1) ∧ (let d := hartFetch (afterHead (dLaunch (childRec 3) true qx) qx) 1 0 0x51000 256
     hartReads d 1 0 0x51000 4 = .ok (childRec 3) false ∧ agentX d 0 [] (.hart 1) 0 0x51000 .read = .hit 0x51000 tLeaf) ∧ recField (BitVec.ofNat 2048 (childRec 3)) 56 4 / 2 ^ 18 % 32 = 0 ∧
      (tDev.part 0).firstSpan / 4 = 0 ∧ crewsOf (dLaunch (childRec 3) true qx) (0 * 64 + 1) = [] := by decide +kernel
theorem witness_PacketsAreTakenInOrder_status : (let f := fun (r : Nat) (q : Bool) => stOf (hartFetch (afterHead (dLaunch r q qx) qx) 1 0 0x51000 256) r
     f (childRec 3) true = 0 ∧ f (childRec 0) true = 0 ∧ (f (childRec 3) false % 256 = 6 ∨ f (childRec 3) false % 256 = 7) ∧
      (f (childRec 3 + 2 ^ 416 * 4) true ≠ 0 ∧ f (childRec 3 + 2 ^ 416 * 4) true % 256 ≠ 6 ∧ f (childRec 3 + 2 ^ 416 * 4) true % 256 ≠ 7)) ∧
    rakeFor (dLaunch (childRec 3) true qx) 0 = some 0 ∧
    ((List.range 64).find? fun i => ((dLaunch (childRec 3) true qx).nests.get? (0 * 64 + i)).isNone) = some 1 := by decide +kernel
def qRetry (b : Bool) : Queue := { qx with pstep := 3, pkt := packet 1 2 0x51000 0 0x80 9, retry := b }
theorem witness_PacketsAreTakenInOrder_retry : ((qRetry true).pstep = 3 ∧ (qRetry true).retry = true ∧ (qRetry false).retry = false) ∧
    (let d := hartFetch (dLaunch (childRec 3) false (qRetry true)) 1 0 0x51000 256
     hartReads d 1 0 0x51000 4 = .ok (childRec 3) false ∧ agentX d 0 [] (.hart 1) 0 0x51000 .read = .hit 0x51000 tLeaf) ∧ (qRetry true).between = false ∧ ({ qRetry true with blocked := true } : Queue).between = true ∧
    (stOf (dLaunch (childRec 3) false (qRetry true)) (childRec 3) % 256 = 6 ∨ stOf (dLaunch (childRec 3) false (qRetry true)) (childRec 3) % 256 = 7) ∧
    (let st := stOf (dLaunch (childRec 3 + 2 ^ 416 * 4) true (qRetry true)) (childRec 3 + 2 ^ 416 * 4)
     st ≠ 0 ∧ st % 256 ≠ 6 ∧ st % 256 ≠ 7) := by decide +kernel

/-! ### Slots -/

def qp : Queue := { qx with pending := true, prio := 3 }
def dSlots (due : Bool) : Dev := ({ tDev with queues := [(6, qx), (7, qp)], clock := 200000 }).setPart 0 { tPart with due := due }
/-- Every slot of the quota is taken; queue 6 is idle. -/
def dFull : Dev := ({ tDev with queues := [(6, { qx with head := 5 }), (7, qp)], slots := (List.range 8).map (fun i => (i, { Slot.empty with queue := some (if i = 3 then 6 else 100 + i) })), clock := 200000 }).setPart 0 { tPart with due := true }
theorem witness_SlotsAreScheduledAndWatched : bsMinimal ({ State.reset.boot with bootstat := 1 + 2 ^ 14 } : Boot) = true ∧ ([dSlots true, dFull].all fun d => !(d.part 0).halted && !(d.part 0).zeroing && decide (d.queues.get? 7 = some qp ∧ (d.queues.map (·.1)).Pairwise (· < ·)) &&
      d.queues.filter (fun e => e.2.part == 0 && e.2.pending && e.2.state == 1) == [(7, qp)] && (d.part 0).due) = true ∧
    (victimSlot (dSlots true) 0 (pendingEp (dSlots true) qp) = some 0 ∧ ((dSlots true).slot 0).queue = none) ∧ ((dSlots false).part 0).due = false := by decide +kernel
theorem witness_SlotsAreScheduledAndWatched_unmap : (match victimSlot dFull 0 (pendingEp dFull qp) with
    | some sl => match (dFull.slot sl).queue with
      | some old => (dFull.queue old).part == 0 && old != 7 && (dFull.queue old).between
      | none => false
    | none => false) = true ∧ ((tDev.clock / 30000 ≤ tDev.tick) ∧ (dSlots true).tick < (dSlots true).clock / 30000) ∧ ((dSlots true).queues.all fun e => e.2.between && e.2.pstep == 0) = true := by decide +kernel
def dWatch (v : W64) : Dev := { dQ qx 0 with slots := [(1, { Slot.empty with queue := some 7, wmaddr := 0x50000, armed := true, wmval := v, wmpa := some 0x50000, met := v == 0 })], pans := [(3, { Pan.empty with watches := [(aLine, 1)] })] }
theorem witness_SlotsAreScheduledAndWatched_watch : (tDev.clock < ((dQ qx 0).slot 1).mapped + 120000 ∧ ((dQ qx 0).slot 1).mapped + 120000 ≤ ({ dQ qx 0 with clock := 120000 } : Dev).clock) ∧
    (((dQ qx 0).slot 1).seen200 = false ∧ ((dQ qx 0).queues.all fun e => !e.2.pending) = true) ∧ ((dQ qx 0).part 0).due = false ∧
    agentX (dWatch 0) 0 [] (.hart 1) 0 0x50000 .read = .hit 0x50000 tLeaf ∧ (((dWatch 0).slot 1).armed = true ∧ ((dWatch 0).slot 1).wmpa = some 0x50000) ∧
    (isHbm 0x50000 = true ∧ ((dWatch 0).slot 1).met = true ∧ ((dWatch 3).slot 1).met = false) ∧
    ((dWatch 3).slots.get? 1 = some ((dWatch 3).slot 1) ∧ waitCond 0 (devReadN (devWriteN (dWatch 3) 0x50000 8 3) 0x50000 8) 3 = true) := by decide +kernel
/-- A watched word in host memory. -/
def hostPa : Nat := 0x8000000000000
def dHost : Dev := { tDev.setPart 0 { tPart with pwin := [(0, 0x2001), (1, 0x8000000002001)] } with
  dies := [(0, { Die.empty with answers := [⟨.hart 1, 0, 0x4000, .leaf ⟨hostPa, 2, 0, true, true⟩⟩] })]
  queues := [(7, qx)], slots := [(1, { Slot.empty with queue := some 7, wmaddr := 0x40000000, armed := true })], mem := memWriteN tTables 0x4008 8 (2 ^ 51 + 0xF) }
theorem witness_SlotsAreScheduledAndWatched_host : isHbm hostPa = false ∧ agentX dHost 0 [] (.hart 1) 0 (dHost.slot 1).wmaddr .read = .hit hostPa ⟨hostPa, 2, 0, true, true⟩ ∧
    ((dHost.slot 1).armed = true ∧ (dHost.slot 1).wmpa = none) ∧ waitCond (dHost.slot 1).wmcond (devReadN dHost hostPa 8) (dHost.slot 1).wmval.toNat = true ∧
    waitCond (dHost.slot 1).wmcond (devReadN dHost hostPa 8) 5 = false := by decide +kernel
end Sys2Proof.Tests
end

