-- ==== Sys2Proof/Tests/WitnessHost.lean ====
section
/-!
SUPPORT. Witnesses for the statements about the host, the start, power, the causeway, collectives and the machine as a whole.
-/
namespace Sys2Proof.Tests
open Sys2Proof.Machine
set_option Elab.async false

/-! ### Partitions and the host -/

def agreed (d : Dev) : State := { devAt d with boot := { (devAt d).boot with featctl := 2 } }
/-- Partition 3 is enabled at pans 8 to 15; partition 1 is not. -/
def dTwo : Dev := { tDev with parts := [(0, tPart), (3, { Part.empty with pctl := 0x00000008400000E1, pwin := [(1, 0x40002001)] })] }
/-- Control words that are refused: a span of 32 pans, a misaligned one, a reserved bit, a save time above 1000, an overlap with partition 0. -/
theorem witness_PartitionsAreSetUpAndZeroed : ((4 < bits (0x141 : W64) 8 6) ∧ bits (0x45 : W64) 5 2 % 2 ^ bits (0x45 : W64) 8 6 ≠ 0 ∧
    bits (0x211 : W64) 15 9 ≠ 0 ∧ bits (0x4000000011 : W64) 47 38 ≠ 0 ∧ 1000 < bits (0x3E9000000000011 <<< 4 : W64) 63 48) ∧
    ((dTwo.part 0).enabled = true ∧ bits (1 : W64) 5 2 < bits (dTwo.part 0).pctl 5 2 + 2 ^ bits (dTwo.part 0).pctl 8 6 ∧
      bits (dTwo.part 0).pctl 5 2 < bits (1 : W64) 5 2 + 2 ^ bits (1 : W64) 8 6) ∧
    (bit (dTwo.part 0).pctl 0 = true ∧ bits (dTwo.part 0).pctl 47 2 ≠ bits (0x841000001 : W64) 47 2) ∧
    (bit (dTwo.part 1).pctl 0 = false ∧ bit (5 : W64) 0 = true ∧ ({ Part.empty with zeroing := true } : Part).zeroing = true) ∧
    (3 < 16 ∧ 16 ≤ 16) ∧ bit (agreed dTwo).boot.featctl 1 = true ∧ bit (devAt dTwo).boot.featctl 1 = false := by decide +kernel
theorem witness_PartitionsAreSetUpAndZeroed_taken : pctlBad dTwo 1 5 = false ∧ (bit (5 : W64) 0 = true ∧ bit (dTwo.part 1).pctl 0 = false) ∧
    pctlBad dTwo 0 0x0001000840000003 = false ∧ bit (0x0001000840000003 : W64) 0 = bit (dTwo.part 0).pctl 0 ∧
    pctlBad dTwo 0 0x840000000 = false ∧ (bit (0x840000000 : W64) 0 = false ∧ bit (dTwo.part 0).pctl 0 = true) := by decide +kernel
theorem witness_PartitionsAreSetUpAndZeroed_windows : (bits (0x10000000000000 : W64) 63 52 ≠ 0 ∧ (bit (1 : W64) 0 = true ∧ bits (1 : W64) 29 13 = 0)) ∧
    (bit (0xFFFFFC0004001 : W64) 0 = true ∧ 2 ^ 52 < pwinBase 0xFFFFFC0004001 + pwinSize 0xFFFFFC0004001) ∧ pwinBad dTwo 0 0x80002001 = false := by decide +kernel
/-- Slots, replay slots and nests of the partitions with v for partition 1: 16 slots, 224 replay slots and 128 nests are the most; one more of each
is refused. -/
def totals (v : W64) : Nat × Nat × Nat :=
  let sum := fun (counts : W64 → Bool) (f : W64 → Nat) => ((List.range 16).map (fun r =>
    let y := if r = 1 then v else (dTwo.part r).pctl
    if counts y then f y else 0)).sum
  (sum (fun _ => true) (fun y => bits y 37 32), sum (fun _ => true) (fun y => bits y 23 16), sum (fun y => bit y 0) (fun y => bits y 31 24))
theorem witness_PartitionsAreSetUpAndZeroed_sums : totals 0x1080E00005 = (32, 224, 256) ∧ totals 0x1180E00005 = (33, 224, 256) ∧
    totals 0x1080E10005 = (32, 225, 256) ∧ totals 0x1081E00005 = (32, 224, 257) ∧
    (bits (0x1080E00005 : W64) 8 6 ≤ 4 ∧ bits (0x1080E00005 : W64) 5 2 = 1 ∧ bits (0x1080E00005 : W64) 15 9 = 0 ∧ bits (0x1080E00005 : W64) 47 38 = 0 ∧
      bits (0x1080E00005 : W64) 63 48 ≤ 1000) ∧ (dTwo.part 1).zeroing = false ∧ (dTwo.part 1).pwin = [] ∧
    (bits (dTwo.part 0).pctl 5 2 + 2 ^ bits (dTwo.part 0).pctl 8 6 ≤ 1 ∧ 1 + 1 ≤ bits (dTwo.part 3).pctl 5 2) := by decide +kernel
/-- Partition 1 has a window over that of partition 0. -/
def dOverlap : Dev := dTwo.setPart 1 { Part.empty with pwin := [(0, 0x2001)] }
theorem witness_PartitionsAreSetUpAndZeroed_taken_window : (∃ w ∈ (dOverlap.part 1).pwin, bit w.2 0 = true ∧
    ∃ e ∈ dOverlap.parts, e.1 ≠ 1 ∧ (e.2.enabled = true ∨ e.2.zeroing = true) ∧ ∃ x ∈ e.2.pwin, bit x.2 0 = true ∧
      ∃ a, isHbm a = true ∧ pwinBase w.2 ≤ a ∧ a < pwinBase w.2 + pwinSize w.2 ∧ pwinBase x.2 ≤ a ∧ a < pwinBase x.2 + pwinSize x.2) :=
  ⟨(0, 0x2001), by decide +kernel, by decide +kernel, (0, tPart), by decide +kernel, by decide +kernel, by decide +kernel, (0, 0x2001),
    by decide +kernel, by decide +kernel, 0, by decide +kernel⟩
/-- A free window of 2^40 bytes that ends where the first gap begins, and one that reaches over it. -/
theorem witness_PartitionsAreSetUpAndZeroed_gap : (pwinBase 0xC000200001 + pwinSize 0xC000200001 = 2 ^ 40 ∧ bits (0xC000200001 : W64) 29 13 ≠ 0 ∧
      pwinBase 0x40002001 < 2 ^ 41) ∧ (pwinBase 0xC000202001 < 2 ^ 41 ∧ 2 ^ 40 < pwinBase 0xC000202001 + pwinSize 0xC000202001) ∧
    (∀ w ∈ ([] : Tab W64), bit w.2 0 = false) ∧ ({ Part.empty with zeroing := true } : Part).zeroing = true := by decide +kernel
def dZero (nests : List (Nat × Nest)) : Dev := { dTwo.setPart 0 { tPart with zeroing := true, pctl := 0 } with nests := nests }
theorem witness_PartitionsAreSetUpAndZeroed_zeroing : (dTwo.part 0).zeroing = false ∧ ((dZero []).part 0).zeroing = true ∧
    (((dZero [(0, tNest)]).part 0).zeroing = true ∧ ∃ e ∈ (dZero [(0, tNest)]).nests, e.2.part = 0) ∧
    (∀ e ∈ (dZero []).nests, e.2.part ≠ 0) ∧ (∀ e ∈ (dZero []).savedNests, e.nest.part ≠ 0) := by decide +kernel

theorem witness_TheHostReachesMemoryAndRegisters : bit ({ State.reset with boot := { Boot.reset with bootstat := 1 } } : State).boot.bootstat 0 = true ∧
    bit (devAt dTwo).boot.bootstat 0 = false ∧ ((linesOf 60 8).all (fun l => isHbm (l * 64)) = true ∧ (linesOf 0x3000000000 8).all (fun l => isHbm (l * 64)) = false) ∧
    ((lineParts 0x2FFE [(1 : Byte), 2, 3].length).any (hostWaits (lined dTwo [0xBF, 0xC0]) false) = false ∧ Memory.wf dTwo.mem = true ∧
      ∀ x ∈ linesOf 0x2FFE 3, isHbm (x * 64) = true) ∧
    (linesOf 0x3000000000 1 = [0x3000000000 / 64] ∧ isHbm (0x3000000000 / 64 * 64) = false) := by decide +kernel
/-- The line moves to another pan. -/
def dHeld : Dev := { tDev with pans := [(hp, { Pan.empty with lines := [(0x1400, { PanLine.fresh 0 0 0 with moving := true })] })] }
theorem witness_TheHostReachesMemoryAndRegisters_held : (lineParts 0x50000 1).any (hostWaits dHeld false) = true ∧
    (lineParts 0x50000 1).any (hostWaits dHeld true) = true := by decide +kernel
/-- A line of partition 0 that is at its home pan, or absent there: 16 bytes are a whole sector. -/
theorem witness_TheHostReachesMemoryAndRegisters_line : let d := lined dTwo [aLine]
    linesOf 0x50000 8 = [aLine] ∧ linesOf 0x50010 16 = [aLine] ∧ lineOwner d aLine = some 0 ∧ currentPan d 0 aLine = panOf d 0 aLine ∧
      (d.pan (panOf d 0 aLine)).line aLine = some (pLine 15) ∧ (lineParts 0x50000 8).any (hostWaits d true) = false ∧
      ((dTwo.pan (panOf dTwo 0 aLine)).line aLine = none ∧ (lineParts 0x50010 16).any (hostWaits dTwo false) = false ∧
        (allocate dTwo (panOf dTwo 0 aLine) aLine 0).isSome = true) ∧
      (aLine * 64 + 16 * 1 < 0x50010 + 16 ∧ 0x50010 < aLine * 64 + 16 * 1 + 16) := by decide +kernel
theorem witness_TheHostReachesMemoryAndRegisters_registers : (0x21 % 8 ≠ 0 ∧ (0x10000 % 8 = 0 ∧ 0x10000 ≤ 0x10000 ∧ 0xFFFF8 < 0x100000)) ∧
    Memory.wf (devAt dTwo).boot.recovery = true ∧ (dTwo.part 0).heldT = [] ∧ (dTwo.part 0).heldF = [] ∧
    (0x10000010000 % 8 = 0 ∧ 0x10000010000 ≤ 0x100000FFFF8 ∧ 0x100000FFFF8 < 0x10000100000) := by decide +kernel

/-! ### The start, power and identity -/

/-- A start under way since clock 500: rails good, stacks trained; an operation of stack 3 runs. -/
def bStart : Boot := { Boot.reset with
  start := 10, startAt := 500, fsc := 1, pwrctl := 0x7FF, pwrstat := 0x7FF, trained := (List.range 12).map (fun k => (k, 6)), h15go := [(3, 1)] }
theorem witness_StartsAreMeasuredAndBounded : (bStart.fsc < 3 ∧ ({ bStart with fsc := 3 } : Boot).fsc = 3) ∧ bit bStart.bootstat 0 = false ∧
    bit (1 : W64) 0 = true ∧ (Boot.reset.start ≠ 10 ∧ bStart.start = 10) ∧ (lateRail bStart 1000 = none ∧ 1000 < bStart.startAt + 1200000000) ∧
    (lateRail bStart 1200000500 = none ∧ bStart.startAt + 1200000000 ≤ 1200000500) ∧
    lateRail { bStart with pwrstat := 0x7FD } 1200001 = some 1 ∧ (bits bStart.pwrstat 10 0 = 0x7FF ∧ ∀ k, k < 12 → bStart.trained.getD k 0 = 6) := by decide +kernel
def bTrain (n : Nat) : Boot := { bStart with trained := bStart.trained.set 3 n }
/-- A start that has failed; a stack whose third step is 20 ms old, and one clock older. -/
theorem witness_StartsAreMeasuredAndBounded_late : ({ bStart with start := 1 } : Boot).start = 1 ∧
    (let b : Boot := { bStart with trained := bStart.trained.set 3 2, h15At := [(3, 600)] }
     lateRail b 12000601 = none ∧ lateStack b 12000600 = none ∧ lateStack b 12000601 = some 3 ∧ 12000600 ≤ b.h15At.getD 3 0 + trainLimit (2 + 1)) := by
  decide +kernel
theorem witness_StartsAreMeasuredAndBounded_training : (bStart.h15go.getD 4 0 ≠ 1 ∧ bStart.h15go.getD 3 0 = 1) ∧
    (Boot.reset.start ≠ 10 ∧ 6 ≤ bStart.trained.getD 3 0) ∧ ((bTrain 2).trained.getD 3 0 < 6 ∧ ∀ j, j < 12 → j ≠ 3 → (bTrain 2).trained.getD j 0 = 6) ∧
    ((bTrain 5).trained.getD 3 0 = 5 ∧ (bTrain 4).trained.getD 3 0 < 5) ∧ ∃ j, j < 12 ∧ j ≠ 3 ∧ ((bTrain 2).trained.set 7 0 : Tab Nat).getD j 0 < 6 := by decide +kernel

def bRail : Boot := { bStart with pwrctl := 0x7FF, pwrstat := 0x7FD, fsc := 3 }
theorem witness_PowerAndIdentityAreSet : (11 ≤ 11 ∧ bit Boot.reset.pwrctl 1 = false ∧ bit bRail.pwrstat 0 = true) ∧
    (1 < 11 ∧ bit bRail.pwrctl 1 = true ∧ bit bRail.pwrstat 1 = false) ∧ (bRail.start = 10 ∧ 1200000 ≤ bRail.railAt.getD 1 0 + railLimit 1) ∧
    bRail.railAt.getD 1 0 + railLimit 1 < 1200001 ∧ bRail.fsc = 3 ∧ (∀ n, n ≤ 11 → (5 : W64) ≠ BitVec.ofNat 64 (2 ^ n - 1)) ∧ (bits (0x400 : W64) 63 10 ≠ 0 ∧ (7 : W64) ≠ 0x3FF ∧ bits (7 : W64) 63 10 = 0) := by decide +kernel

/-- Ten rails are good and the eleventh may follow 200 µs after the tenth; a rail went off at clock 500. -/
def bTen : Boot := { bStart with pwrctl := 0x3FF, pwrstat := 0x3FF, railAt := [(9, 1000)] }
theorem witness_PowerAndIdentityAreSet_order : bsMinimal bTen = false ∧ bTen.pwrctl = BitVec.ofNat 64 (2 ^ 10 - 1) ∧ bTen.pwrstat = bTen.pwrctl ∧
    (bTen.railAt.getD 9 0 + 120000 ≤ 121000 ∧ 120999 < bTen.railAt.getD 9 0 + 120000) ∧ (bTen.offAt = none ∧ ({ bTen with offAt := some 500 } : Boot).offAt = some 500) ∧
    (500 + 600000 ≤ 600500 ∧ 600499 < 500 + 600000) := by decide +kernel

/-! ### The causeway -/

/-- Port 0 is up with three flits to acknowledge; die 1 is reached through it. -/
def portUp : Port := { tDev.port 0 with state := 2, recvSeq := 7, sendSeq := 9, retry := [(6, .refused 1 2), (7, .refused 3 4), (8, .refused 5 6)] }
def dPort : Dev := { tDev with ports := [(0, portUp)], cwself := 5, cwroute := [(1, 8)] }
theorem witness_PowerAndIdentityAreSet_ports : (∃ e ∈ dPort.ports, e.2.state = 2) ∧ ∀ e ∈ tDev.ports, e.2.state ≠ 2 := by decide +kernel
def askM : PortMsg := .request 5 6 0x1400 .load
theorem witness_PortsCarryMessages : (0 < 8 ∧ bsMinimal (devAt dTwo).boot = false ∧ bsMinimal { Boot.reset with bootstat := 1 } = true) ∧ (dPort.port 1).state ≠ 1 ∧ ({ portUp with state := 1 } : Port).state = 1 ∧ (let x : Port := { portUp with state := 1, since := 100 }
      22200100 ≤ x.since + 22200000 ∧ x.since + 22200000 < 22200101) ∧ (portUp.state = 2 ∧ (dPort.port 1).state ≠ 2) ∧
    ((⟨7, false, askM⟩ : Flit).crcOk = false ∧ (⟨8, true, askM⟩ : Flit).seq ≠ portUp.recvSeq) ∧
    ((⟨7, true, askM⟩ : Flit).crcOk = true ∧ (⟨7, true, askM⟩ : Flit).seq = portUp.recvSeq) ∧
    (dPort.ops.get? (3 / 2 ^ 46) = none ∧ ({ dPort with colls := [collOf 1] } : Dev).colls[0]? = some (collOf 1)) := by decide +kernel
theorem witness_PortsCarryMessages_retry : (∀ e ∈ portUp.retry, e.1 ≠ 9) ∧ portUp.retry = [(6, .refused 1 2)] ++ (7, .refused 3 4) :: [(8, .refused 5 6)] ∧
    (∀ e ∈ [((6 : Nat), PortMsg.refused 1 2)], e.1 ≠ 7) ∧ dPort.outbox = [] ∧ (portUp.resendOf ≠ 7 ∧ portUp.resends < 8 ∧ ({ portUp with resends := 8, resendOf := 7 } : Port).resendOf = 7 ∧
      8 ≤ ({ portUp with resends := 8, resendOf := 7 } : Port).resends) ∧
    (∀ e ∈ dPort.ops, ∀ u ∈ e.2.subs, isPeer (u.2.line * 64) = false) := by decide +kernel
theorem witness_PortsCarryMessages_routes : (bit (3 : W64) 63 = false ∧ bit (0x80000000000003FF : W64) 63 = true ∧ bits (0x80000000000003FF : W64) 9 0 = 0x3FF) ∧
    (bits (0x8000000000000005 : W64) 9 0 = dPort.cwself.toNat ∧ bits (0x8000000000004003 : W64) 61 14 ≠ 0 ∧ tDev.cwself = 0x3FF) ∧
    (bit (0x8000000000002403 : W64) 63 = true ∧ bits (0x8000000000002403 : W64) 9 0 = 3 ∧ bits (0x8000000000002403 : W64) 61 14 = 0 ∧ dPort.cwself ≠ 0x3FF) := by decide +kernel
/-- The window of partition 0 admits every die; a request of die 4 has come behind an abort, one without a stamp in another port. -/
def portAsked (stamp : Nat) : Port := { portUp with inbox := [.abort 1 1, .request stamp 6 0x1400 .load] }
def dAsked : Dev := ({ dPort with ports := [(0, portAsked 4), (1, portAsked 0x3FF)] }).setPart 0 { tPart with pwin := [(0, 0x2007)] }
theorem witness_PortsCarryMessages_requests : portUp.inbox.all (fun m => !isRequestMsg m) = true ∧
    ((dAsked.port 1).inbox.find? isRequestMsg = some (.request 0x3FF 6 0x1400 .load) ∧ (dAsked.port 1).state = 2 ∧ (dAsked.port 1).retry.length < 512) ∧
    (isHbm (0xC0000000 * 64) = false ∧ inboundPart dPort 4 0x1400 = none) ∧ (dAsked.port 0).inbox.find? isRequestMsg = some (.request 4 6 0x1400 .load) ∧
    (isHbm (0x1400 * 64) = true ∧ inboundPart dAsked 4 0x1400 = some 0) ∧ ((dAsked.pan (panOf dAsked 0 0x1400)).banks.getD (bankOf (0x1400 * 64)) []).length < 64 := by decide +kernel

/-! ### Collectives -/

def winIn (x : Desc) : Win := { Win.bound x with state := .present, holds := 1 }
def crewIn : Crew := { crewCo with wins := [(0, winIn (slice 0 64)), (1, winIn (slice 64 128))] }
def held2 (e : Coll) : Coll := { e with held := [0, 1] }
def dColl (e : Coll) : Dev := { (sCo crewCo wCo).dev with
  dies := [(0, { Die.empty with tlb := tTlb })]
  ports := [(0, { portUp with inbox := [.abort 0 0, .ready 0 0 1] })], cwself := 5, cwroute := [(1, 8)], colls := [held2 e], crews := [(0, crewIn)] }
theorem witness_CollectivesRunStepByStep : (dColl (collOf 0)).colls[1]? = none ∧ (dColl (collOf 0)).colls[0]? = some (held2 (collOf 0)) ∧
    ((collOf 4).phase = 4 ∧ (collOf 4).pending = [] ∧ ({ collOf 4 with pending := [(6, 77, 0)] } : Coll).pending ≠ []) ∧
    (collCrew tDev { collOf 0 with id := { (collOf 0).id with num := 9 } } = none ∧ (collOf 0).phase ≠ 4) ∧
    collCrew (dColl (collOf 0)) (held2 (collOf 0)) = some crewIn ∧ ((collOf 0).stopped = false ∧ (collOf 0).fseqs = [] ∧ (crewIn.save == .discard) = false) := by decide +kernel
theorem witness_CollectivesRunStepByStep_steps : (∀ n ∈ collWins (collOf 0).desc, n ∈ (held2 (collOf 0)).held) ∧ collTurn (dColl (collOf 0)) (held2 (collOf 0)) = true ∧
    ((dColl (collOf 0)).cwself ≠ 0x3FF ∧ tDev.cwself = 0x3FF) ∧ portFor (dColl (collOf 0)) (2 ^ 50 + 1 * 2 ^ 40) = some 0 ∧
    ((collOf 1).pending = [] ∧ (collOf 1).ranks.getD ((clRank (collOf 1).desc + 1) % clN (collOf 1).desc) (0x3FF, 0) = (1, 0x60000)) ∧ portUp.retry.length < 512 := by
  decide +kernel
theorem witness_CollectivesRunStepByStep_flag : (let e := held2 (collOf 2)
      stageRead (dColl (collOf 2)) e crewIn (4 * e.step) 4 = .ok 0 false ∧
      (stageRead { dColl (collOf 2) with dies := [], engines := [] } e crewIn (4 * e.step) 4 matches .miss _) = true ∧
      clId e.desc * 2 ^ 16 + e.attempt * 2 ^ 8 + e.step = 0 ∧ clId e.desc * 2 ^ 16 + ({ e with attempt := 1 } : Coll).attempt * 2 ^ 8 + e.step ≠ 0 ∧ clKind e.desc = 0 ∧
      (collRecv 0 e crewIn (List.range (clChunk e.desc / 64)) (stageFetch (dColl (collOf 2)) e crewIn (4 * e.step) 4)).isLeft = true) ∧
    -- the flag's line is on its way
    (let e := held2 (collOf 2)
     let l := clStage e.desc / 64
     stageRead ((dColl e).setPan (panOf (dColl e) 0 l) { Pan.empty with lines := [(l, { pLine 15 with filling := true })] }) e crewIn (4 * e.step) 4 = .wait) := by
  decide +kernel
theorem witness_CollectivesRunStepByStep_end : ((collOf 3).phase = 3 ∧ (collOf 3).stopped = false) ∧ (dColl (collOf 3)).warps.get? (crewIn.warps.getD (collOf 3).cwarp 0) = some wCo ∧
    ((held2 (collOf 3)).held.Nodup ∧ (collOf 3).tileOp = none) ∧ ((1 + 256 - 0) % 256 ≠ 0 ∧ (1 + 256 - 0) % 256 < 128) := by decide +kernel
theorem witness_CollectivesRunStepByStep_messages : (∃ p, p < 8 ∧ PortMsg.abort (clId (collOf 1).desc) 0 ∈ ((dColl (collOf 1)).port p).inbox) ∧
    (∀ p, p < 8 → PortMsg.abort (clId (collOf 1).desc) 0 ∉ (dPort.port p).inbox) ∧ (1 ≠ clRank (collOf 1).desc ∧ 0 = (collOf 1).attempt ∧ 1 ∉ (collOf 1).ready) ∧
    (∃ p, p < 8 ∧ PortMsg.ready (clId (collOf 1).desc) 0 1 ∈ ((dColl (collOf 1)).port p).inbox) ∧
    (0 = clRank (collOf 1).desc ∧ ({ collOf 1 with stopped := true } : Coll).stopped = true ∧ (collOf 1).phase ≠ 4) := by decide +kernel

/-! ### The machine as a whole -/

/-- Warp 0 at an add word, behind it a prefix and another word; its lane block's first word is a lane word. -/
def dStep : Dev := { tDev with
  warps := [(0, { tWarp with queue := [tBlock] })],
  mem := memWriteN (memWriteN tTables 0x10000 12 (0x00108300 + 2 ^ 32 * 0xFC000048 + 2 ^ 64 * 0x10503456)) 0x12000 12 0x040801802D55FFFFF82F8038 }
def sStep (who : Who) : State := { State.reset with turns := [⟨1, [], who⟩], dev := dStep }
def dNow : Dev := lookFront 0 (passTime 1 dStep)
def dPipe : Dev := lookPipes 0 (passTime 1 dStep)
def wStep : Warp := { tWarp with queue := [tBlock] }
theorem witness_StepRunsTheDecodedInstruction : State.reset.turns = [] ∧ ((dStep.parts.all fun e => e.2.heldT.isEmpty && e.2.heldF.isEmpty) = true ∧
      (dStep.warps.all fun e => e.2.acquires.isEmpty && e.2.install.isNone) = true) ∧
      (State.reset.boot.start ≠ 1 ∧ (dNow.cluster 0).issued ≠ dNow.clock + 1 ∧ ((dNow.setCluster 0 { dNow.cluster 0 with issued := 1002 }).cluster 0).issued = dNow.clock + 1) ∧ ((match encode .powerOn with | .none => true | _ => false) = true ∧ chooseCand dNow (scalarCands dNow 1) = none) ∧
    (chooseCand dNow (scalarCands dNow 0) = some 0 ∧ dNow.warps.get? 0 = some wStep) ∧ (wStep.batchErr = [] ∧ inCode dNow wStep wStep.spc = true) ∧
    aform wStep.spc = .va 0x10000 ∧ xlate dNow wStep.xs wStep.cluster (dNow.partOf wStep) 0x10000 .exec = .hit 0x10000 tLeaf ∧ devReadN dNow 0x10000 4 / 2 ^ 26 ≠ 63 ∧
    (match decodeScalarBytes (bytesOf (devReadN dNow 0x10000 4) 4) with | .ok i => decide (i = .add 1 2 3 0) | _ => false) = true := by decide +kernel
/-- The same warp at the prefix. -/
def wPfx : Warp := { wStep with spc := 0x10004 }
def dPfx : Dev := lookFront 0 { passTime 1 dStep with warps := [(0, wPfx)] }
theorem witness_StepRunsTheDecodedInstruction_prefix : chooseCand dPfx (scalarCands dPfx 0) = some 0 ∧ devReadN dPfx 0x10004 4 / 2 ^ 26 = 63 ∧
    inCode dPfx wPfx (wPfx.spc + 4) = true ∧ aform (wPfx.spc + 4) = .va 0x10008 ∧
    dPfx.warps.get? 0 = some wPfx ∧ xlate dPfx wPfx.xs wPfx.cluster (dPfx.partOf wPfx) 0x10008 .exec = .hit 0x10008 tLeaf ∧
    (match decodeScalarBytes (bytesOf (devReadN dPfx 0x10004 4) 4 ++ bytesOf (devReadN dPfx 0x10008 4) 4) with
      | .ok i => decide (i = .pfx 0x48 0x10503456) | _ => false) = true := by decide +kernel
theorem witness_StepRunsTheDecodedInstruction_lane : ((dPipe.pipe 0 0).cur = none ∧ (dPipe.pipe 0 0).hold ≤ dPipe.clock ∧ (dPipe.pipe 0 0).issued ≠ dPipe.clock + 1 ∧ chooseCand dPipe (laneCands dPipe 0 0) = some 0 ∧ dPipe.warps.get? 0 = some wStep) ∧
    (laneRuns dPipe 0 wStep = true ∧ wStep.lready ≤ dPipe.clock ∧ wStep.pipe = 0 ∧ wStep.cluster = 0) ∧ wStep.queue = tBlock :: [] ∧
    (fetchLane dPipe wStep tBlock 0x12000 = .inl 0xF82F8038 ∧ fetchLane dPipe wStep tBlock 0x12004 = .inl 0x2D55FFFF ∧
      fetchLane dPipe wStep tBlock 0x12008 = .inl 0x04080180) := by decide +kernel
theorem witness_StepRunsTheDecodedInstruction_current :
    (let e : Dev := lookPipes 0 (passTime 1 (dStep.setPipe 0 0 { dStep.pipe 0 0 with cur := some 0 }))
     (e.pipe 0 0).cur = some 0 ∧ e.warps.get? 0 = some wStep ∧ laneRuns e 0 wStep = true ∧ fetchLane e wStep tBlock 0x12000 = .inl 0xF82F8038 ∧
       fetchLane e wStep tBlock 0x12004 = .inl 0x2D55FFFF ∧ fetchLane e wStep tBlock 0x12008 = .inl 0x04080180) ∧
    (match decodeLaneBytes (bytesOf 0xF82F8038 4 ++ bytesOf 0x2D55FFFF 4 ++ bytesOf 0x04080180 4) with | .ok (.laneAdd _) => true | _ => false) = true := by decide +kernel

/-! ### Completion -/

def wLens : Warp := { tWarp with sregs := [(1, 64), (2, 1)] }
theorem witness_WordsAndStepsComplete : Issuing (scalarAt wLens) 0 wLens ∧ lanesDrained wLens = true ∧ wLens.pendingS [5] = false ∧
    ((11 : BitVec 6).toNat < 12 ∧ 48 ≤ (48 : BitVec 6).toNat ∧ (51 : BitVec 6).toNat < 52) ∧ (wLens.pendingS [1] = false ∧ wLens.pendingS [2] = false) ∧
    (1 ≤ (wLens.s 2).toNat ∧ (wLens.s 1).toNat ≤ 64) := by decide +kernel
theorem witness_WordsAndStepsComplete_lanes : LaneIssuing (laneS wMem) 0 wMem bV ∧ legal (atomRow 7 1) (fw 7 20 4 0 8 2047 1) wMem = true ∧
    wMem.full .a = false ∧ (ordersOf (laneS wMem).dev wMem.cluster [3, 3, 3]).1 = none ∧
    lanesOn (execMask wMem bV (fw 7 20 4 0 8 2047 1)) = [0, 1, 2] ∧
    ([0, 1, 2].all fun i => decide ((lcx (laneS wMem).dev wMem bV).read 4 6 i = 3 ∧ (at_ wMem i).toNat % 8 = 0) && hits wMem .write 7 i) = true := by
  decide +kernel
theorem witness_WordsAndStepsComplete_nests : dGang.nests.get? 0 = some nWait ∧ wantsGang dGang 0 nWait = true ∧ (∀ e ∈ dGang.nests, e.1 = 0) ∧
    nWait.gangSize = 1 ∧ (dGang.part nWait.part).spanLog = 0 ∧
    (chooseSpot dGang ⟨List.replicate nWait.warpsPer nWait.gran, nWait.ssize, nWait.tilesDecl⟩ (dGang.part nWait.part).firstSpan).isSome = true ∧
    nOver.ending = false ∧ (∃ q ∈ nOver.points, q.retires = true) := by decide +kernel
theorem witness_WordsAndStepsComplete_queues : (let t : BitVec 32 := 18
     qx.state = 1 ∧ t ≠ qx.tail ∧ (t - qx.tail).toNat < 2 ^ 31 ∧ (t - qx.head).toNat ≤ 2 ^ qx.rlog) ∧
    (((dQ qx 9).slot 1).queue = some 7 ∧ qx.fseq = none ∧ ((dQ qx 9).part 0).halted = false ∧ qx.pstep = 0 ∧ qx.mirror = false ∧ qx.head ≠ qx.tail) ∧
    (bsMinimal State.reset.boot = false ∧ ((dQm qx 9).part 0).zeroing = false ∧ readHead (headFetch (dQm qx 9) 1 qx) 1 qx = .ok 9 false) ∧
    (let y := blockQueue (blockOf 0x400000 16 1 2 5)
     y.state = 1 ∧ ({ qx with state := 0 } : Queue).state ≠ 1 ∧ 4 ≤ y.rlog ∧ y.rlog ≤ 16 ∧ y.ring % (64 * 2 ^ y.rlog) = 0 ∧ (y.tail - y.head).toNat ≤ 2 ^ y.rlog) := by
  decide +kernel
theorem witness_WordsAndStepsComplete_collectives :
    ((dColl (collOf 1)).colls[0]? = some (held2 (collOf 1)) ∧ collCrew (dColl (collOf 1)) (held2 (collOf 1)) = some crewIn) ∧
    ((collOf 1).stopped = false ∧ (collOf 1).fseqs = [] ∧ (crewIn.save == .discard) = false ∧ (collOf 1).phase = 1 ∧ (collOf 1).pending = []) ∧
    ((collOf 3).stopped = false ∧ (collOf 3).phase = 3) ∧ (1 ≠ clRank (collOf 1).desc ∧ 1 ∉ (collOf 1).ready) := by decide +kernel

theorem witness_MemoryReadsBackWhatWasWritten : Memory.wf tTables = true ∧ Memory.wf (memWriteN tTables 0x2FFF 2 0x1FF) = true ∧ Memory.wf [] = true := by decide +kernel
/-- Well-formed instructions of each form, at extreme values of their operands. -/
theorem witness_DecodeInvertsEncode : wfInstr (.add 63 0 63 3) = true ∧ wfInstr (.pfx 0x3FFFFFF 0x10503456) = true ∧ wfInstr .powerOn = true ∧
    wfInstr (decodeLane 0x040801802D55FFFFF82F8038) = true := by decide +kernel
theorem witness_StartRegistersStayLegal : State.reset.boot.legal = true ∧ (∃ t, step State.reset = .next t) ∧ bStart.legal = false ∧
    ({ bStart with bootstat := 2 } : Boot).legal = true := ⟨by decide +kernel, ⟨_, rfl⟩, by decide +kernel, by decide +kernel⟩
theorem witness_OnlyManagementChangesTheStart : (∃ t, exec (.powerSample 5) State.reset = .next t) ∧ (∃ t, exec (.walkStart 0) State.reset = .next t) ∧
    isManagement (.add 1 2 3 0) = false ∧ isManagement (.powerSample 5) = true := ⟨⟨_, rfl⟩, ⟨_, rfl⟩, rfl, rfl⟩
end Sys2Proof.Tests
end

section
/-!
PROOF. Memory (R12): equal memories are equal data, and what a line store does to memory.
-/
namespace Sys2Proof.Machine

/-! ### The canonical form -/

theorem memAbove_cons (a k : Nat) (v : Byte) (r : Mem) : memAbove a ((k, v) :: r) = true ↔ a < k ∧ memAbove a r = true := by
  simp [memAbove]

theorem wf_cons (k : Nat) (v : Byte) (r : Mem) :
    Memory.wf ((k, v) :: r) = true ↔ v ≠ memDefault ∧ memAbove k r = true ∧ Memory.wf r = true := by
  simp [Memory.wf, and_assoc]

@[simp] theorem memRead_cons_same (k : Nat) (v : Byte) (r : Mem) : memRead ((k, v) :: r) k = v := by
  simp [memRead]

theorem memRead_cons_other (k a : Nat) (v : Byte) (r : Mem) (h : a ≠ k) : memRead ((k, v) :: r) a = memRead r a := by
  simp [memRead, h.symm]

/-- Below its first address, a canonical memory reads as if unlisted. -/
theorem memRead_below_head (k a : Nat) (v : Byte) (r : Mem) (h : Memory.wf ((k, v) :: r) = true) (ha : a < k) :
    memRead ((k, v) :: r) a = memDefault := by
  obtain ⟨-, hr, -⟩ := (wf_cons k v r).mp h
  exact memRead_above _ _ ((memAbove_cons a k v r).mpr ⟨ha, memAbove_mono r a k (Nat.le_of_lt ha) hr⟩)

/-- Canonical memories that read alike have no first address below the other's: it would read as listed in one and as unlisted in the other. -/
theorem head_le_of_memRead_eq (k k' : Nat) (v v' : Byte) (r r' : Mem) (h : Memory.wf ((k, v) :: r) = true)
    (h' : Memory.wf ((k', v') :: r') = true) (he : memRead ((k, v) :: r) k = memRead ((k', v') :: r') k) : k' ≤ k := by
  refine Nat.le_of_not_lt fun hlt => ?_
  obtain ⟨hv, -, -⟩ := (wf_cons k v r).mp h
  rw [memRead_cons_same, memRead_below_head k' k v' r' h' hlt] at he
  exact hv he

/-- A canonical memory that reads as unlisted everywhere lists nothing. -/
theorem eq_nil_of_memRead (m : Mem) (h : Memory.wf m = true) (he : ∀ a, memRead m a = memDefault) : m = [] := by
  cases m with
  | nil => rfl
  | cons c r =>
    obtain ⟨k, v⟩ := c
    obtain ⟨hv, -, -⟩ := (wf_cons k v r).mp h
    exact absurd (by simpa using he k) hv

/-- Memories in the canonical form that read alike are the same list. -/
theorem eq_of_memRead_eq (m m' : Mem) (h : Memory.wf m = true) (h' : Memory.wf m' = true) (he : ∀ a, memRead m a = memRead m' a) :
    m = m' := by
  induction m generalizing m' with
  | nil => exact (eq_nil_of_memRead m' h' fun a => (he a).symm).symm
  | cons c r ih =>
    cases m' with
    | nil => exact eq_nil_of_memRead _ h he
    | cons c' r' =>
      obtain ⟨k, v⟩ := c
      obtain ⟨k', v'⟩ := c'
      obtain rfl : k = k' := Nat.le_antisymm (head_le_of_memRead_eq k' k v' v r' r h' h (he k').symm)
        (head_le_of_memRead_eq k k' v v' r r' h h' (he k))
      obtain rfl : v = v' := by simpa using he k
      obtain ⟨-, hr, hwf⟩ := (wf_cons k v r).mp h
      obtain ⟨-, hr', hwf'⟩ := (wf_cons k v r').mp h'
      have tails : ∀ a, memRead r a = memRead r' a := by
        intro a
        by_cases ha : a = k
        · rw [ha, memRead_above r k hr, memRead_above r' k hr']
        · simpa only [memRead_cons_other k a v _ ha] using he a
      rw [ih r' hwf hwf' tails]

/-! ### A list of byte writes -/

section
variable {β : Type} (addr : β → Nat) (val : Mem → β → Byte)

theorem wf_foldl_memWrite (bs : List β) (m : Mem) (h : Memory.wf m = true) :
    Memory.wf (bs.foldl (fun m b => memWrite m (addr b) (val m b)) m) = true := by
  induction bs generalizing m with
  | nil => exact h
  | cons b bs ih => exact ih _ (wf_memWrite m _ _ h)

/-- A byte whose address no write of the list names is as before. -/
theorem memRead_foldl_memWrite_other (bs : List β) (m : Mem) (j : Nat) (h : ∀ b ∈ bs, j ≠ addr b) :
    memRead (bs.foldl (fun m b => memWrite m (addr b) (val m b)) m) j = memRead m j := by
  induction bs generalizing m with
  | nil => rfl
  | cons b bs ih =>
    obtain ⟨hb, hbs⟩ := List.forall_mem_cons.mp h
    rw [List.foldl_cons, ih _ hbs, memRead_memWrite_other _ _ _ _ hb]

end

/-! ### A line store -/

/-- Cleaning the poison of any of a line's sectors leaves memory alone (R68, R271). -/
theorem foldl_cleanPoison_mem (p : Nat → Bool) (a : Nat → Nat) (n : Nat) (is : List Nat) (d : Dev) :
    (is.foldl (fun d i => if p i then cleanPoison d (a i) n else d) d).mem = d.mem := by
  induction is generalizing d with
  | nil => rfl
  | cons i is ih =>
    rw [List.foldl_cons, ih]
    split
    · exact cleanPoison_mem d _ _
    · rfl

/-- All that a line store does to memory are its byte writes, each under its mask. -/
theorem storeLine_mem (d : Dev) (l : Nat) (bs : List (Nat × Byte × Byte)) : (storeLine d l bs).mem =
    bs.foldl (fun m b => memWrite m (l * 64 + b.1) ((memRead m (l * 64 + b.1) &&& ~~~ b.2.2) ||| (b.2.1 &&& b.2.2))) d.mem := by
  simp only [storeLine, written, compareWatches_mem, dropLingers_mem, foldl_cleanPoison_mem]

theorem wf_storeLine (d : Dev) (l : Nat) (bs : List (Nat × Byte × Byte)) (h : Memory.wf d.mem = true) :
    Memory.wf (storeLine d l bs).mem = true := by
  rw [storeLine_mem]; exact wf_foldl_memWrite _ _ bs _ h

theorem memRead_storeLine_other (d : Dev) (l : Nat) (bs : List (Nat × Byte × Byte)) (j : Nat) (h : ∀ b ∈ bs, j ≠ l * 64 + b.1) :
    memRead (storeLine d l bs).mem j = memRead d.mem j := by
  rw [storeLine_mem]; exact memRead_foldl_memWrite_other _ _ bs _ j h

/-- Settles O55: the write rules of Laws/Memory.lean, extensionality of the canonical form, and a line store as a list of byte writes. -/
theorem memoryReadsBackWhatWasWritten : Obligations.MemoryReadsBackWhatWasWritten := by
  unfold Obligations.MemoryReadsBackWhatWasWritten
  refine ⟨?number, wf_filter, eq_of_memRead_eq, ?line⟩
  case number =>
    intro m a n v h
    exact ⟨wf_memWriteN m a n v h, memReadN_memWriteN m a n v h, fun i hi => memRead_memWriteN m a n v i h hi,
      fun j hj => memRead_memWriteN_other m a n v j hj⟩
  case line =>
    intro d l bs h
    exact ⟨wf_storeLine d l bs h, fun j hj => memRead_storeLine_other d l bs j hj⟩

end Sys2Proof.Machine
end

section
/-!
PROOF. The end of a point (R26, R348, R349): what pdone does to its warp, to its crew and to the nest.
-/
namespace Sys2Proof.Machine

/-- Of two writes of one entry of a table, the second stands. -/
theorem set_set {α : Type} (t : Tab α) (i : Nat) (x y : α) : Tab.set (Tab.set t i x) i y = Tab.set t i y := by
  induction t with
  | nil => simp [Tab.set]
  | cons e r ih =>
    obtain ⟨k, v⟩ := e
    by_cases hk : k = i
    · simp [Tab.set, hk]
    · by_cases hi : i < k
      · simp [Tab.set, hk, hi]
      · simp [Tab.set, hk, hi, ih]

@[simp] theorem setWarp_setWarp (d : Dev) (k : Nat) (x y : Warp) : (d.setWarp k x).setWarp k y = d.setWarp k y := by
  simp [Dev.setWarp, set_set]

/-- A warp without batches has none to complete (R292). -/
theorem closeBatches_of_no_batches {d : Dev} {k : Nat} {w : Warp} (hw : d.warps.get? k = some w) (hb : w.batches = []) :
    closeBatches d k = d :=
  times_fixed (by simp [closeBatch, hw, hb]) 17

/-! ### The wait of pdone -/

theorem pdoneReady_iff (d : Dev) (k : Nat) (w : Warp) : pdoneReady d k w = true ↔
    lanesDrained w = true ∧ w.batches = [] ∧ w.outG = [] ∧ w.outX = [] ∧ w.outA = [] ∧ w.outT = [] ∧ w.acks = 0 ∧
      fenceReady d k w true .v = true := by
  simp [pdoneReady, and_assoc]

/-- The conditions of pdone are about the operations in flight, not about the table of warps. -/
theorem pdoneReady_setWarp (d : Dev) (k : Nat) (x w : Warp) : pdoneReady (d.setWarp k x) k w = pdoneReady d k w := rfl

/-- pdone of a warp with no matrix operation to close: the warp parks and its crew may be done, or the word is tried again. -/
theorem exec_pdone {s : State} {k : Nat} {w : Warp} (hi : Issuing s k w) (ho : w.openOps = []) (hb : w.batches = [])
    (he : w.batchErr = []) : exec (.pdone 0 0 0) s = .next { s with
      dev :=
        if pdoneReady s.dev k w = true then pointDone w.crewKey (s.dev.setWarp k { w with park := .point, xs := [] })
        else stall s.dev k w } := by
  have hclose : closeBatches (s.dev.setWarp k w) k = s.dev.setWarp k w := closeBatches_of_no_batches (Tab.get?_set_same _ _ _) hb
  refine (scalarWord_issuing hi _).trans ?_
  unfold pdoneWord
  rw [checked_pass (by simp)]
  simp [closeOpen, ho, he, hclose, pdoneReady_setWarp, stall]

/-! ### The end of the crew's point -/

section
variable {d : Dev} {ck : Nat} {c : Crew} {pt : Pt} (hc : d.crews.get? ck = some c) (hp : c.point = some pt)
include hc hp

/-- The point goes on while a warp of the crew has not completed pdone (R348). -/
theorem pointDone_of_warp_not_done {j : Nat} {v : Warp} (hj : j ∈ c.warps) (hv : d.warps.get? j = some v) (hpark : v.park ≠ .point) :
    pointDone ck d = d := by
  have hall : c.warps.all (fun wk => ((d.warps.get? wk).map (fun w => w.park == .point)).getD true) = false :=
    List.all_eq_false.mpr ⟨j, hj, by simp [hv, hpark]⟩
  simp [pointDone, hc, hp, hall]

/-- Once every warp of the crew has completed pdone, the point is finished, the crew idle, and the rake goes on (R349). -/
theorem pointDone_of_all_done {n : Nest} (hn : d.nests.get? c.id.nest = some n)
    (hall : ∀ j v, j ∈ c.warps → d.warps.get? j = some v → v.park = .point) :
    pointDone ck d = rakeRun c.id.nest { d with
      crews := d.crews.set ck { c with point := none, save := if c.save = .none then .none else .drain }
      nests := d.nests.set c.id.nest { n with
        points := n.points.map (fun p => if p.pt.linear = pt.linear then { p with finished := true, crew := none } else p) } } := by
  have hdone : c.warps.all (fun wk => ((d.warps.get? wk).map (fun w => w.park == .point)).getD true) = true := by
    refine List.all_eq_true.mpr fun j hj => ?_
    cases hv : d.warps.get? j with
    | none => rfl
    | some v => simp [hall j v hj hv]
  simp [pointDone, hc, hp, hdone, Tab.modify, hn, Dev.setCrew]

end

/-- Settles O19: by the crew's other warps, a pdone that is ready leaves the point going on or finishes it; else the word is tried again. -/
theorem pdoneParksAndFinishesThePoint : Obligations.PdoneParksAndFinishesThePoint := by
  unfold Obligations.PdoneParksAndFinishesThePoint
  refine ⟨?goesOn, ?last⟩
  case goesOn =>
    intro s k j w v c pt hi ho hb he hc hp hj hjk hv hpark drained
    have hready : pdoneReady s.dev k w = true ↔ drained := by simp [drained, pdoneReady_iff, hb]
    rw [exec_pdone hi ho hb he]
    refine ⟨fun h => ?ready, fun h => ?notReady⟩
    case ready =>
      rw [if_pos (hready.mpr h), pointDone_of_warp_not_done (d := s.dev.setWarp k _) hc hp hj (by simp [hjk, hv]) hpark]
      exact ⟨_, rfl, by simp [OnlyWarp]⟩
    case notReady =>
      rw [if_neg (mt hready.mp h)]
      exact ⟨_, rfl, by simp [OnlyWarp, stall]⟩
  case last =>
    intro s k w c pt nest hi ho hb he hl hg hx ha ht hk hf hc hp hn hothers done parked idle d
    have hready : pdoneReady s.dev k w = true := (pdoneReady_iff _ _ _).mpr ⟨hl, hb, hg, hx, ha, ht, hk, hf⟩
    have hall : ∀ j v, j ∈ c.warps → (s.dev.setWarp k parked).warps.get? j = some v → v.park = .point := by
      intro j v hj hv
      by_cases hjk : j = k
      · obtain rfl : parked = v := by simpa [hjk] using hv
        rfl
      · exact hothers j v hj hjk (by simpa [hjk] using hv)
    have hend : pointDone w.crewKey (s.dev.setWarp k parked) = rakeRun c.id.nest d :=
      pointDone_of_all_done (d := s.dev.setWarp k parked) hc hp hn hall
    rw [exec_pdone hi ho hb he, if_pos hready, hend]

end Sys2Proof.Machine
end
